-- ==== Sys2Proof/Word.lean ====
section
/-! DEFINITION. The word types of FMCODEC, by port and use (00_scope.md R8, 30_encoding.md R61). -/

namespace Sys2Proof

/-- A data byte: line data, TX data, OPD (R8). -/
abbrev Byte := BitVec 8

/-- A 16-bit register, accumulator or response word (R8, R20). -/
abbrev Word := BitVec 16

/-- A host command word, format H: OP[15:8], OPD[7:0] (R62). -/
abbrev HostWord := BitVec 16

/-- A line receive word, format L: EOF[9], VALID[8], DATA[7:0] (R66). -/
abbrev LineWord := BitVec 10

/-- An RX frame output word, format F (R69). -/
abbrev FrameWord := BitVec 32

end Sys2Proof
end

