-- ==== Sys2Proof/Config.lean ====
section
/-! DEFINITION. The one parameter of FMCODEC, MAX_RAW (00_scope.md R7), and the one open value of the model. -/

namespace Sys2Proof

/-- The parameter of the block (R7): MAX_RAW, the largest number of raw line bytes, idle padding included, that one
receive window takes. It is not state (R44) and no rule writes it (R42); `State` carries it so that `step` sees it
(log 4). DESIGN CHOICE, safe: a statement over every state holds for every MAX_RAW. -/
structure Config where
  maxRaw : Word
  deriving DecidableEq, Repr

/-- The block "as built from the source": MAX_RAW = 256 (R7, D9). -/
def Config.reference : Config := { maxRaw := 256 }

/-- DESIGN CHOICE (log 8), safe: `HOLD[i]` where the hold line has no element `i`. R43 shows that no reachable state
reads such a byte, so the spec gives it no value; nothing constrains this one. -/
opaque Config.absentHoldByte : Nat → Byte

end Sys2Proof
end

