-- ==== Sys2Proof/Syntax.lean ====
section
/-! DEFINITION. The instructions of FMCODEC (one constructor per row of spec/opcode_table.json), the command error
codes, the register names, and the source form of a program (30_encoding.md R74 to R79). -/

namespace Sys2Proof

/-- The eight host commands (R64) and the four line events (R67). An operand is the byte its word carries: a data byte,
a register number (reserved numbers included: they are a legal encoding, R72), or nothing. The ignored DATA of
LINE_IDLE and RX_EOF is no operand (R97, R101). -/
inductive Instr where
  | nop
  | crcInit
  | crcByte (b : Byte)
  | txStart
  | txByte (b : Byte)
  | txEnd
  | regRead (n : Byte)
  | reset
  | lineIdle
  | rxByte (b : Byte)
  | rxEof
  | rxByteEof (b : Byte)
  deriving DecidableEq, Repr

/-- The four command errors (60_exceptions.md R120). Code 0, no error, is the absence of one. -/
inductive CmdError where
  | undefOp
  | badOperand
  | seq
  | badReg
  deriving DecidableEq, Repr

/-- A word on one of the two input ports (R61): the two formats are decoded apart, and their words overlap as numbers. -/
inductive PortWord where
  | host (w : HostWord)
  | line (w : LineWord)
  deriving DecidableEq, Repr

/-- The registers `REG_READ` reads (10_state.md R40). -/
inductive Reg where
  | status | cacc | tacc | racc | rlen | rraw | llen | lrecv | lcalc | fcnt | param
  deriving DecidableEq, Repr

/-- The `H:` part of a cycle's source: a command, or `.word 0x....` for a word that has no other syntax (R74). -/
inductive HostSource where
  | command (i : Instr)
  | word (w : HostWord)
  deriving DecidableEq, Repr

/-- One cycle's source, `[L: <line-form>] [H: <command>]`; either part may be omitted (R75). -/
structure CycleSource where
  line : Option Instr
  host : Option HostSource
  deriving DecidableEq, Repr

/-- One line of a program's source: a cycle, or a pseudo-instruction (R76 to R79). -/
inductive Source where
  | cycle (c : CycleSource)
  | txFrame (d : List Byte)
  | crcBlock (d : List Byte)
  | rxFrame (d : List Byte)
  | rxBytes (d : List Byte)
  | rdStat
  deriving DecidableEq, Repr

end Sys2Proof
end

