-- ==== Sys2Proof/WellFormed.lean ====
section
/-! DEFINITION. What a well-formed term is. Every operand type of `Instr` has exactly the width its encoding gives, so
each instruction is well formed by its type; the checks are on the port an instruction belongs to, on a cycle's source,
and on the parameter. -/

namespace Sys2Proof

/-- A line event: format L, the line receive port (30_encoding.md R67). -/
def Instr.isLine : Instr → Bool
  | .nop | .crcInit | .crcByte _ | .txStart | .txByte _ | .txEnd | .regRead _ | .reset => false
  | .lineIdle | .rxByte _ | .rxEof | .rxByteEof _ => true

/-- A host command: format H, the host command port (30_encoding.md R64). -/
def Instr.isHost (i : Instr) : Bool := !i.isLine

/-- The `H:` part holds a host command; a `.word` may be any word (R74). -/
def HostSource.wf : HostSource → Bool
  | .command i => i.isHost
  | .word _ => true

/-- `L:` takes a line form and `H:` a host command (R75). -/
def CycleSource.wf (c : CycleSource) : Bool :=
  c.line.all Instr.isLine && c.host.all HostSource.wf

/-- A source line is well formed when its cycle is; a pseudo-instruction always is. -/
def Source.wf : Source → Bool
  | .cycle c => c.wf
  | .txFrame _ | .crcBlock _ | .rxFrame _ | .rxBytes _ | .rdStat => true

/-- `3 <= MAX_RAW <= 65535` (00_scope.md R7); the width gives the upper bound. -/
def Config.wf (c : Config) : Bool := decide (3 ≤ c.maxRaw.toNat)

end Sys2Proof
end

