-- ==== Sys2Proof/Decode.lean ====
section
/-! DEFINITION. Decoding host command words (30_encoding.md R65) and line words (R67), both total, and the encoder. -/

namespace Sys2Proof

/-- OP = C[15:8] (R62). -/
def opField (w : HostWord) : Byte := w.extractLsb' 8 8

/-- OPD = C[7:0] (R62). -/
def opdField (w : HostWord) : Byte := w.extractLsb' 0 8

/-- EOF = L[9] (R66). -/
def eofBit (w : LineWord) : Bool := w.getLsbD 9

/-- VALID = L[8] (R66). -/
def validBit (w : LineWord) : Bool := w.getLsbD 8

/-- DATA = L[7:0] (R66). -/
def dataField (w : LineWord) : Byte := w.extractLsb' 0 8

/-- A command with a must-be-zero operand: any other OPD makes the word BAD_OPERAND (R63, R65). -/
def mustBeZero (opd : Byte) (i : Instr) : Except CmdError Instr :=
  if opd = 0x00#8 then .ok i else .error .badOperand

/-- `decode_H` (R65): every 16-bit word is one command or one illegal verdict, UNDEF_OP or BAD_OPERAND. -/
def decodeHost (w : HostWord) : Except CmdError Instr :=
  match (opField w).toNat with
  | 0x00 => mustBeZero (opdField w) .nop
  | 0x01 => mustBeZero (opdField w) .crcInit
  | 0x02 => .ok (.crcByte (opdField w))
  | 0x10 => mustBeZero (opdField w) .txStart
  | 0x11 => .ok (.txByte (opdField w))
  | 0x12 => mustBeZero (opdField w) .txEnd
  | 0x20 => .ok (.regRead (opdField w))
  | 0x30 => mustBeZero (opdField w) .reset
  | _ => .error .undefOp

/-- The form of a line word, by L[9:8] (R67); every 10-bit word is one of the four. DATA is dropped where it is ignored
(DEDUCED, log 10). -/
def decodeLine (w : LineWord) : Instr :=
  match eofBit w, validBit w with
  | false, false => .lineIdle
  | false, true => .rxByte (dataField w)
  | true, false => .rxEof
  | true, true => .rxByteEof (dataField w)

/-- Decoding a word of either input port; it depends on the word alone (R73). -/
def decode : PortWord → Except CmdError Instr
  | .host w => decodeHost w
  | .line w => .ok (decodeLine w)

/-- A host command word from its fields (R62). -/
def hostWord (op opd : Byte) : HostWord := op ++ opd

/-- A line word from its fields (R66). -/
def lineWord (eof valid : Bool) (data : Byte) : LineWord :=
  BitVec.ofBool eof ++ (BitVec.ofBool valid ++ data)

/-- The word of an instruction (R64, R67), on its port. A must-be-zero operand is `0x00`; ignored DATA is written
`0x00`, as R75 writes the omitted line form. -/
def encode : Instr → PortWord
  | .nop => .host (hostWord 0x00 0x00)
  | .crcInit => .host (hostWord 0x01 0x00)
  | .crcByte b => .host (hostWord 0x02 b)
  | .txStart => .host (hostWord 0x10 0x00)
  | .txByte b => .host (hostWord 0x11 b)
  | .txEnd => .host (hostWord 0x12 0x00)
  | .regRead n => .host (hostWord 0x20 n)
  | .reset => .host (hostWord 0x30 0x00)
  | .lineIdle => .line (lineWord false false 0x00)
  | .rxByte b => .line (lineWord false true b)
  | .rxEof => .line (lineWord true false 0x00)
  | .rxByteEof b => .line (lineWord true true b)

/-- A port word with its ignored DATA bits cleared: a line word with VALID = 0 has no other don't-care (R66, I6). -/
def PortWord.canonical : PortWord → PortWord
  | .host w => .host w
  | .line w => .line (if validBit w then w else w &&& 0x300#10)

/-- A row of an opcode map: a word `C` selects it when `(C & mask) == match` (R64, R67). -/
structure OpcodeRow where
  mnemonic : String
  pattern : Nat
  mask : Nat
  deriving DecidableEq, Repr

/-- The opcode map of format H (R64). -/
def hostRows : List OpcodeRow :=
  [ { mnemonic := "NOP", pattern := 0x0000, mask := 0xFFFF },
    { mnemonic := "CRC_INIT", pattern := 0x0100, mask := 0xFFFF },
    { mnemonic := "CRC_BYTE", pattern := 0x0200, mask := 0xFF00 },
    { mnemonic := "TX_START", pattern := 0x1000, mask := 0xFFFF },
    { mnemonic := "TX_BYTE", pattern := 0x1100, mask := 0xFF00 },
    { mnemonic := "TX_END", pattern := 0x1200, mask := 0xFFFF },
    { mnemonic := "REG_READ", pattern := 0x2000, mask := 0xFF00 },
    { mnemonic := "RESET", pattern := 0x3000, mask := 0xFFFF } ]

/-- The four forms of format L (R67). -/
def lineRows : List OpcodeRow :=
  [ { mnemonic := "LINE_IDLE", pattern := 0x000, mask := 0x300 },
    { mnemonic := "RX_BYTE", pattern := 0x100, mask := 0x300 },
    { mnemonic := "RX_EOF", pattern := 0x200, mask := 0x300 },
    { mnemonic := "RX_BYTE_EOF", pattern := 0x300, mask := 0x300 } ]

/-- The word `w` selects the row (R64). -/
def OpcodeRow.selects (r : OpcodeRow) (w : Nat) : Bool := (w &&& r.mask) == r.pattern

/-- The mnemonic of an instruction, as spec/opcode_table.json spells it. -/
def Instr.mnemonic : Instr → String
  | .nop => "NOP"
  | .crcInit => "CRC_INIT"
  | .crcByte _ => "CRC_BYTE"
  | .txStart => "TX_START"
  | .txByte _ => "TX_BYTE"
  | .txEnd => "TX_END"
  | .regRead _ => "REG_READ"
  | .reset => "RESET"
  | .lineIdle => "LINE_IDLE"
  | .rxByte _ => "RX_BYTE"
  | .rxEof => "RX_EOF"
  | .rxByteEof _ => "RX_BYTE_EOF"

/-- The port an opcode-table row's word is presented on, told by its width alone: 10 bits or fewer the line port, more
the host command port. DESIGN CHOICE (log 7): the two formats' words overlap as numbers. -/
def tablePortWord (nbits w : Nat) : PortWord :=
  if nbits ≤ 10 then .line (BitVec.ofNat 10 w) else .host (BitVec.ofNat 16 w)

/-- The instruction the decoder reads from a word numbered as spec/opcode_table.json numbers it; none where the decoder
refuses it, or where the number is no word of the port. -/
def decodeTableWord (nbits w : Nat) : Option Instr :=
  if w < (if nbits ≤ 10 then 2 ^ 10 else 2 ^ 16) then
    match decode (tablePortWord nbits w) with
    | .ok i => some i
    | .error _ => none
  else none

end Sys2Proof
end

