-- ==== Sys2Proof/Machine/State.lean ====
section
/-! DEFINITION. The state of FMCODEC (10_state.md R20), the events of its output ports (00_scope.md R14), what its
environment presents (R16, R137), and reset (70_reset_and_hazards.md R136). -/

namespace Sys2Proof.Machine

/-- TXS, the generator state: IDLE (0) or PAYLOAD (1) (R24). -/
inductive TxState where
  | idle
  | payload
  deriving DecidableEq, Repr

/-- RXS, the framer state: HUNT (0) or FRAME (1) (R26). -/
inductive RxState where
  | hunt
  | frame
  deriving DecidableEq, Repr

/-- HOLD, the hold line: at most two bytes, oldest first (R28). -/
inductive Hold where
  | empty
  | one (oldest : Byte)
  | two (oldest newest : Byte)
  deriving DecidableEq, Repr

/-- The verdict of a closed window (R70). NONE, "no window closed", is the absence of one in LVERD. -/
inductive Verdict where
  | ok
  | crcErr
  | short
  | noData
  deriving DecidableEq, Repr

/-- An event on the RX frame output port (R69); `finish` is FRAME_END. -/
inductive FrameEvent where
  | byte (b : Byte)
  | finish (v : Verdict) (ovf : Bool) (n : Word)
  deriving DecidableEq, Repr

/-- An event on one of the three output ports: TX output, RX frame output, response (R14, R61). -/
inductive PortEvent where
  | tx (b : Byte)
  | rx (e : FrameEvent)
  | response (w : Word)
  deriving DecidableEq, Repr

/-- What the environment presents for one step: a cycle's line word and optional command word (R16, R116), or the
hardware reset input, during which no cycle is performed (R137; DEDUCED, log 5). -/
inductive Input where
  | cycle (line : LineWord) (command : Option HostWord)
  | hardwareReset
  deriving DecidableEq, Repr

/-- The 17 elements of R20, each under the spec's name, and three fields of the model's own: the parameter (`config`,
log 4), what the environment presents next (`inputs`, log 1), and every event emitted so far, oldest first (`out`,
log 3). -/
structure State where
  config : Config
  cacc : Word
  txs : TxState
  tacc : Word
  rxs : RxState
  racc : Word
  hold : Hold
  rlen : Word
  rraw : Word
  rovf : Bool
  lverd : Option Verdict
  lovf : Bool
  llen : Word
  lrecv : Word
  lcalc : Word
  fcnt : Word
  cerr : Bool
  ecode : Option CmdError
  inputs : List Input
  out : List PortEvent
  deriving DecidableEq, Repr

/-- Right after reset (R136): every element at the value the spec states. MAX_RAW is the reference value 256 (R7,
log 4); nothing has been presented or emitted. -/
def State.reset : State :=
  { config := Config.reference
    cacc := 0xFFFF
    txs := .idle
    tacc := 0xFFFF
    rxs := .hunt
    racc := 0xFFFF
    hold := .empty
    rlen := 0
    rraw := 0
    rovf := false
    lverd := none
    lovf := false
    llen := 0
    lrecv := 0
    lcalc := 0
    fcnt := 0
    cerr := false
    ecode := none
    inputs := []
    out := [] }

/-- FMCODEC never stops: "The step is deterministic and total: every state and every input pair has exactly one
successor, and no input makes FMCODEC stuck" (43_control.md R117; R135). So there is no fault, and nothing raises one.
A command error is a next state (R121), a failed verdict a reported value (R122). -/
inductive Fault where
  deriving DecidableEq, Repr

/-- Why the model has no meaning for an instruction. Safe: the model stops where the hardware goes on. -/
inductive Refusal where
  /-- Raised only by an arm of `exec` whose instruction has no meaning yet; at present there is no such arm. Safe. -/
  | notModelled (mnemonic : String)
  deriving DecidableEq, Repr

end Sys2Proof.Machine
end

