-- ==== Sys2Proof/Machine/Ops.lean ====
section
/-! DEFINITION. The operations the meanings share: bytes of words, the CRC, output primitives, the command error
action, reset, and the framer's hold line, classification, reporting and closing. FMCODEC has no memory (20_memory.md
R48), so there is no memory operation. -/

namespace Sys2Proof.Machine

/-! ### The fixed constants (00_scope.md R6) -/

/-- CRC_INIT: the accumulator at the start of every CRC. -/
def crcInitial : Word := 0xFFFF

/-- CRC_POLY: XORed after a shift whose shifted-out bit was 1. -/
def crcPoly : Word := 0xA001

/-- IDLE_BYTE: the byte value of an idle line. -/
def idleByte : Byte := 0xFF

/-- MIN_FRAME: the least stripped length a valid frame has. -/
def minFrame : Nat := 3

/-! ### Bytes of a word (R9, R11) -/

/-- `w[7:0]`. -/
def lowByte (w : Word) : Byte := w.extractLsb' 0 8

/-- `w[15:8]`. -/
def highByte (w : Word) : Byte := w.extractLsb' 8 8

/-- `{hi, lo} = (zext_16(hi) << 8) | zext_16(lo)` (R11). -/
def joinBytes (hi lo : Byte) : Word := (hi.setWidth 16 <<< 8) ||| lo.setWidth 16

/-! ### The CRC (40_crc.md R81, R82) -/

/-- One of the 8 iterations of R81: the test of bit 0 is made before the shift. -/
def crcShift (a : Word) : Word :=
  if a.getLsbD 0 then (a >>> 1) ^^^ crcPoly else a >>> 1

/-- `n` iterations of `crcShift`. -/
def crcShifts : Nat → Word → Word
  | 0, a => a
  | n + 1, a => crcShifts n (crcShift a)

/-- `crc_step(acc, b)` (R81): the byte is XORed into the low byte, then all 8 iterations are performed. -/
def crcStep (acc : Word) (b : Byte) : Word := crcShifts 8 (acc ^^^ b.setWidth 16)

/-- `crc_step` folded over a byte list from the left (R82). -/
def crcFold (acc : Word) (d : List Byte) : Word := d.foldl crcStep acc

/-- `crc16(d)` (R82): from `0xFFFF`, no final exclusive-or. -/
def crc16 (d : List Byte) : Word := crcFold crcInitial d

/-! ### Output primitives (R14) -/

/-- Append one event. One list over the three ports keeps the order R57 gives events on different ports (log 3). -/
def emit (e : PortEvent) (s : State) : State := { s with out := s.out ++ [e] }

/-- `tx_emit(b)`. -/
def txEmit (b : Byte) (s : State) : State := emit (.tx b) s

/-- `rx_emit_byte(b)`. -/
def rxEmitByte (b : Byte) (s : State) : State := emit (.rx (.byte b)) s

/-- `rx_emit_end(v, ovf, n)`. -/
def rxEmitEnd (v : Verdict) (ovf : Bool) (n : Word) (s : State) : State := emit (.rx (.finish v ovf n)) s

/-- `respond(w)`. -/
def respond (w : Word) (s : State) : State := emit (.response w) s

/-! ### Command errors and reset: the spec's whole "exception" behaviour (60_exceptions.md R119, R126) -/

/-- `raise CmdError(code)` (R121): the first error since reset is kept, nothing else changes. There is no trap and so no
return from one; only reset clears CERR and ECODE (R127). -/
def raiseCmdError (e : CmdError) (s : State) : State :=
  if s.cerr then s else { s with cerr := true, ecode := some e }

/-- `apply_reset()` (R136): all 17 elements. What was emitted stays emitted (R113, R144), the parameter is no state
(R42), and what the environment presents next is not FMCODEC's (R21). -/
def applyReset (s : State) : State :=
  { s with
    cacc := 0xFFFF
    txs := .idle
    tacc := 0xFFFF
    rxs := .hunt
    racc := 0xFFFF
    hold := .empty
    rlen := 0
    rraw := 0
    rovf := false
    lverd := none
    lovf := false
    llen := 0
    lrecv := 0
    lcalc := 0
    fcnt := 0
    cerr := false
    ecode := none }

/-! ### The framer (42_framer.md) -/

/-- HOLD as the list R28 describes, oldest first. -/
def holdList : Hold → List Byte
  | .empty => []
  | .one a => [a]
  | .two a b => [a, b]

/-- `HOLD[i]`. Where HOLD has no element `i`, which no rule reads in a reachable state (R102), an opaque byte (log 8). -/
def holdByte : Hold → Nat → Byte
  | .one a, 0 => a
  | .two a _, 0 => a
  | .two _ b, 1 => b
  | _, i => Config.absentHoldByte i

/-- The check field of the open window, `{HOLD[1], HOLD[0]}`: the last two bytes, little-endian (20_memory.md R50). -/
def checkField (h : Hold) : Word := joinBytes (holdByte h 1) (holdByte h 0)

/-- `hold_push(b)` (R99): with two bytes held, the older one leaves: it is emitted and fed to RACC. -/
def holdPush (b : Byte) (s : State) : State :=
  match s.hold with
  | .empty => { s with hold := .one b }
  | .one a => { s with hold := .two a b }
  | .two a c => { rxEmitByte a s with racc := crcStep s.racc a, hold := .two c b }

/-- `RX_BYTE b` in HUNT, after the byte is counted in RRAW (R98): idle padding is stripped, any other byte starts the
frame. -/
def huntByte (b : Byte) (s : State) : State :=
  if b = idleByte then s else { s with rxs := .frame, rlen := 1, hold := .one b }

/-- `RX_BYTE b` in FRAME, after the byte is counted in RRAW (R98): every byte is frame data. -/
def frameByte (b : Byte) (s : State) : State := holdPush b { s with rlen := s.rlen + 1 }

/-- `RX_BYTE b` (R98): a byte past MAX_RAW is dropped and sets ROVF, with no other effect. -/
def takeByte (b : Byte) (s : State) : State :=
  if s.rraw = s.config.maxRaw then { s with rovf := true }
  else
    match s.rxs with
    | .hunt => huntByte b { s with rraw := s.rraw + 1 }
    | .frame => frameByte b { s with rraw := s.rraw + 1 }

/-- `classify()` (R102), tested in this order. -/
def classify (s : State) : Verdict :=
  if s.rraw = 0 then .noData
  else if s.rlen.toNat < minFrame then .short
  else if checkField s.hold = s.racc then .ok
  else .crcErr

/-- The verdict is one of those that report the two check values, OK and CRC_ERR (R101). -/
def Verdict.reportsCheck : Verdict → Bool
  | .ok | .crcErr => true
  | .short | .noData => false

/-- The report of `RX_EOF` (R101): FRAME_END is emitted, the last-window registers are latched, the window is counted
modulo 2^16. -/
def reportWindow (v : Verdict) (s : State) : State :=
  { rxEmitEnd v s.rovf s.rlen s with
    lverd := some v
    lovf := s.rovf
    llen := s.rlen
    lrecv := if v.reportsCheck then checkField s.hold else 0
    lcalc := if v.reportsCheck then s.racc else 0
    fcnt := s.fcnt + 1 }

/-- `close_window()` (R103): a new window opens. -/
def closeWindow (s : State) : State :=
  { s with rxs := .hunt, racc := 0xFFFF, hold := .empty, rlen := 0, rraw := 0, rovf := false }

/-- `RX_EOF` (R101): classify, report, close. -/
def endOfFrame (s : State) : State := closeWindow (reportWindow (classify s) s)

end Sys2Proof.Machine
end

