-- ==== Sys2Proof/Machine/Operands.lean ====
section
/-! DEFINITION. The codes of the small registers and the 32-bit words of the RX frame output (30_encoding.md R69, R70),
and the projections of the event record onto the three output ports. An operand of a command is the byte the decoder
took from OPD or DATA (R63): there is no addressing mode and no other operand form (43_control.md R115). -/

namespace Sys2Proof.Machine

/-- TXS as its bit (R24). -/
def TxState.bit : TxState → Bool
  | .idle => false
  | .payload => true

/-- RXS as its bit (R26). -/
def RxState.bit : RxState → Bool
  | .hunt => false
  | .frame => true

/-- HCNT = len(HOLD), 0 to 2 (R28). -/
def Hold.count : Hold → BitVec 2
  | .empty => 0
  | .one _ => 1
  | .two _ _ => 2

/-- The 3-bit code of a verdict (R70). -/
def Verdict.code : Verdict → BitVec 3
  | .ok => 1
  | .crcErr => 2
  | .short => 3
  | .noData => 4

/-- LVERD as its 3 bits: 0 NONE before any window has closed (R32). -/
def lverdCode : Option Verdict → BitVec 3
  | none => 0
  | some v => v.code

/-- The 3-bit code of a command error (60_exceptions.md R120). -/
def errorCode : CmdError → BitVec 3
  | .undefOp => 1
  | .badOperand => 2
  | .seq => 3
  | .badReg => 4

/-- ECODE as its 3 bits: 0 NONE (R39). -/
def ecodeBits : Option CmdError → BitVec 3
  | none => 0
  | some e => errorCode e

/-- The word an RX frame event carries (R69). -/
def FrameEvent.word : FrameEvent → FrameWord
  | .byte b => b.setWidth 32
  | .finish v ovf n =>
    0x80000000 ||| (v.code.setWidth 32 <<< 28) ||| ((BitVec.ofBool ovf).setWidth 32 <<< 27) ||| n.setWidth 32

/-- The verdict of a 3-bit code that FRAME_END carries; NONE and the reserved codes are never produced (R70). -/
def verdictOfCode (c : BitVec 3) : Option Verdict :=
  match c.toNat with
  | 1 => some .ok
  | 2 => some .crcErr
  | 3 => some .short
  | 4 => some .noData
  | _ => none

/-- The consumer's decoder of an RX frame word (R69, D30); none for a word FMCODEC never produces (I13). -/
def frameEventOfWord (w : FrameWord) : Option FrameEvent :=
  if w.getLsbD 31 then
    if w.extractLsb' 16 11 = 0#11 then
      (verdictOfCode (w.extractLsb' 28 3)).map fun v => .finish v (w.getLsbD 27) (w.extractLsb' 0 16)
    else none
  else if w.extractLsb' 8 23 = 0#23 then some (.byte (w.extractLsb' 0 8))
  else none

/-- The TX output port's part of an event record, in order (R71). -/
def txPort (es : List PortEvent) : List Byte :=
  es.filterMap fun
    | .tx b => some b
    | .rx _ => none
    | .response _ => none

/-- The RX frame output port's part, in order (R69). -/
def rxPort (es : List PortEvent) : List FrameEvent :=
  es.filterMap fun
    | .rx e => some e
    | .tx _ => none
    | .response _ => none

/-- The response port's part, in order (R68). -/
def responsePort (es : List PortEvent) : List Word :=
  es.filterMap fun
    | .response w => some w
    | .tx _ => none
    | .rx _ => none

end Sys2Proof.Machine
end

