-- ==== Sys2Proof/Machine/Flags.lean ====
section
/-! DEFINITION. The register map (10_state.md R40): STATUS assembled from the flags (R41), PARAM (R42), and the rest. -/

namespace Sys2Proof.Machine

/-- STATUS (R41), assembled from the state each time it is read. -/
def statusWord (s : State) : Word :=
  (BitVec.ofBool s.txs.bit).setWidth 16
    ||| ((BitVec.ofBool s.rxs.bit).setWidth 16 <<< 1)
    ||| (s.hold.count.setWidth 16 <<< 2)
    ||| ((BitVec.ofBool s.rovf).setWidth 16 <<< 4)
    ||| ((BitVec.ofBool s.cerr).setWidth 16 <<< 5)
    ||| ((ecodeBits s.ecode).setWidth 16 <<< 6)
    ||| ((lverdCode s.lverd).setWidth 16 <<< 9)
    ||| ((BitVec.ofBool s.lovf).setWidth 16 <<< 12)

/-- The register a number names; none for the reserved numbers 0x0B to 0xFF (R40, R46). -/
def regOfNumber (n : Byte) : Option Reg :=
  match n.toNat with
  | 0x00 => some .status
  | 0x01 => some .cacc
  | 0x02 => some .tacc
  | 0x03 => some .racc
  | 0x04 => some .rlen
  | 0x05 => some .rraw
  | 0x06 => some .llen
  | 0x07 => some .lrecv
  | 0x08 => some .lcalc
  | 0x09 => some .fcnt
  | 0x0A => some .param
  | _ => none

/-- The number of a register (R40). -/
def regNumber : Reg → Byte
  | .status => 0x00
  | .cacc => 0x01
  | .tacc => 0x02
  | .racc => 0x03
  | .rlen => 0x04
  | .rraw => 0x05
  | .llen => 0x06
  | .lrecv => 0x07
  | .lcalc => 0x08
  | .fcnt => 0x09
  | .param => 0x0A

/-- `reg(n)`: the 16-bit value read (R40, R112). -/
def regValue (s : State) : Reg → Word
  | .status => statusWord s
  | .cacc => s.cacc
  | .tacc => s.tacc
  | .racc => s.racc
  | .rlen => s.rlen
  | .rraw => s.rraw
  | .llen => s.llen
  | .lrecv => s.lrecv
  | .lcalc => s.lcalc
  | .fcnt => s.fcnt
  | .param => s.config.maxRaw

end Sys2Proof.Machine
end

