-- ==== Sys2Proof/Machine/Control.lean ====
section
/-! DEFINITION. The control commands (43_control.md R111 to R113). -/

namespace Sys2Proof.Machine

/-- `NOP` (R111): no effect. -/
def execNop (s : State) : Host.Outcome State Fault Refusal := .next s

/-- `REG_READ n` (R112): exactly one response word always; for a reserved number it is `0x0000`, and BAD_REG is raised
after the response. -/
def execRegRead (n : Byte) (s : State) : Host.Outcome State Fault Refusal :=
  match regOfNumber n with
  | some r => .next (respond (regValue s r) s)
  | none => .next (raiseCmdError .badReg (respond 0 s))

/-- `RESET` (R113). -/
def execReset (s : State) : Host.Outcome State Fault Refusal := .next (applyReset s)

end Sys2Proof.Machine
end

