-- ==== Sys2Proof/Machine/CrcChannel.lean ====
section
/-! DEFINITION. The CRC channel commands (40_crc.md R84, R85). -/

namespace Sys2Proof.Machine

/-- `CRC_INIT` (R84). -/
def execCrcInit (s : State) : Host.Outcome State Fault Refusal :=
  .next { s with cacc := crcInitial }

/-- `CRC_BYTE b` (R85). -/
def execCrcByte (b : Byte) (s : State) : Host.Outcome State Fault Refusal :=
  .next { s with cacc := crcStep s.cacc b }

end Sys2Proof.Machine
end

