-- ==== Sys2Proof/Machine/Framer.lean ====
section
/-! DEFINITION. The line events (42_framer.md R97, R98, R101, R105). They never raise a command error. -/

namespace Sys2Proof.Machine

/-- `LINE_IDLE` (R97): no effect. -/
def execLineIdle (s : State) : Host.Outcome State Fault Refusal := .next s

/-- `RX_BYTE b` (R98). -/
def execRxByte (b : Byte) (s : State) : Host.Outcome State Fault Refusal := .next (takeByte b s)

/-- `RX_EOF` (R101). -/
def execRxEof (s : State) : Host.Outcome State Fault Refusal := .next (endOfFrame s)

/-- `RX_BYTE_EOF b` (R105): the byte, in full, then the end of frame of the window that now includes it. -/
def execRxByteEof (b : Byte) (s : State) : Host.Outcome State Fault Refusal := .next (endOfFrame (takeByte b s))

end Sys2Proof.Machine
end

