-- ==== Sys2Proof/Machine/Generator.lean ====
section
/-! DEFINITION. The frame generator commands (41_generator.md R89 to R91). -/

namespace Sys2Proof.Machine

/-- `TX_START` (R89): SEQ when a frame is already open. -/
def execTxStart (s : State) : Host.Outcome State Fault Refusal :=
  match s.txs with
  | .payload => .next (raiseCmdError .seq s)
  | .idle => .next { s with txs := .payload, tacc := crcInitial }

/-- `TX_BYTE b` (R90): SEQ when no frame is open. -/
def execTxByte (b : Byte) (s : State) : Host.Outcome State Fault Refusal :=
  match s.txs with
  | .idle => .next (raiseCmdError .seq s)
  | .payload => .next { txEmit b s with tacc := crcStep s.tacc b }

/-- `TX_END` (R91): the check field, low byte first; TACC keeps the value just appended. SEQ when no frame is open. -/
def execTxEnd (s : State) : Host.Outcome State Fault Refusal :=
  match s.txs with
  | .idle => .next (raiseCmdError .seq s)
  | .payload => .next { txEmit (highByte s.tacc) (txEmit (lowByte s.tacc) s) with txs := .idle }

end Sys2Proof.Machine
end

