-- ==== Sys2Proof/Machine/Dispatch.lean ====
section
/-! DEFINITION. One arm per instruction, each a call of its meaning. -/

namespace Sys2Proof.Machine

def exec (i : Instr) (s : State) : Host.Outcome State Fault Refusal :=
  match i with
  | .nop => Sys2Proof.Machine.execNop s
  | .crcInit => Sys2Proof.Machine.execCrcInit s
  | .crcByte b => Sys2Proof.Machine.execCrcByte b s
  | .txStart => Sys2Proof.Machine.execTxStart s
  | .txByte b => Sys2Proof.Machine.execTxByte b s
  | .txEnd => Sys2Proof.Machine.execTxEnd s
  | .regRead n => Sys2Proof.Machine.execRegRead n s
  | .reset => Sys2Proof.Machine.execReset s
  | .lineIdle => Sys2Proof.Machine.execLineIdle s
  | .rxByte b => Sys2Proof.Machine.execRxByte b s
  | .rxEof => Sys2Proof.Machine.execRxEof s
  | .rxByteEof b => Sys2Proof.Machine.execRxByteEof b s

end Sys2Proof.Machine
end

