-- ==== Sys2Proof/Machine/Cycle.lean ====
section
/-! DEFINITION. One cycle (43_control.md R117), the hardware reset between cycles (70_reset_and_hazards.md R137), and
taking the environment's next input. -/

namespace Sys2Proof.Machine

/-- Go on from a next state; a stop stays a stop. -/
def andThen (o : Host.Outcome State Fault Refusal) (f : State → Host.Outcome State Fault Refusal) :
    Host.Outcome State Fault Refusal :=
  match o with
  | .next s => f s
  | .fault r => .fault r
  | .refused r => .refused r

/-- The line part of a cycle: the line byte, then the end of frame (R117). The form of the word says which of the two
it holds (R67), and RX_BYTE_EOF performs both in that order (R105; DEDUCED, log 15). -/
def performLine (l : LineWord) (s : State) : Host.Outcome State Fault Refusal := exec (decodeLine l) s

/-- The command part of a cycle (R117): an illegal word has no effect but its command error (R72, R121; log 11), and a
cycle with no command word performs none (R116). -/
def performCommand (c : Option HostWord) (s : State) : Host.Outcome State Fault Refusal :=
  match c with
  | none => .next s
  | some w =>
    match decodeHost w with
    | .ok i => exec i s
    | .error e => .next (raiseCmdError e s)

/-- `cycle(L, C)` (R117): the command sees the state the line part left. -/
def cycle (l : LineWord) (c : Option HostWord) (s : State) : Host.Outcome State Fault Refusal :=
  andThen (performLine l s) (performCommand c)

/-- What one input does: a cycle, or the hardware reset, which performs no cycle and has the effect of `RESET`
(R136, R137). -/
def performInput (i : Input) (s : State) : Host.Outcome State Fault Refusal :=
  match i with
  | .cycle l c => cycle l c s
  | .hardwareReset => .next (applyReset s)

/-- The cycle in which neither agent presents anything: the idle word on the line, no command (00_scope.md R19). -/
def idleInput : Input := .cycle 0x000 none

/-- The input of the next step: the first of those presented; with none left, the idle cycle (R19; DESIGN CHOICE,
log 2). -/
def nextInput (s : State) : Input :=
  match s.inputs with
  | [] => idleInput
  | i :: _ => i

/-- The state once that input is taken: FMCODEC takes one in every cycle in which one is presented (R116). -/
def takeInput (s : State) : State :=
  match s.inputs with
  | [] => s
  | _ :: rest => { s with inputs := rest }

/-- The cycle that presents one port word and nothing on the other port (R75). -/
def inputOfWord : PortWord → Input
  | .host w => .cycle 0x000 (some w)
  | .line w => .cycle w none

end Sys2Proof.Machine
end

