-- ==== Sys2Proof/Machine/Step.lean ====
section
/-! DEFINITION. One step of FMCODEC, and presenting one instruction word to it. -/

namespace Sys2Proof.Machine

/-- One step: take the input presented and perform it (R16, R117, R137). -/
def step (s : State) : Host.Outcome State Fault Refusal :=
  performInput (nextInput s) (takeInput s)

/-- Present an instruction's word in the very next cycle, before whatever was to be presented. FMCODEC has no program
counter and stores no program (R21, R59): the host and the line present it (log 6). -/
def State.withFetchWord (s : State) (nbits w : Nat) : State :=
  { s with inputs := inputOfWord (tablePortWord nbits w) :: s.inputs }

end Sys2Proof.Machine
end

