-- ==== Sys2Proof/Machine/Assembler.lean ====
section
/-! DEFINITION. The assembler of 30_encoding.md section 6: cycle sources and pseudo-instructions to inputs (R74 to R79),
and reading them from text. -/

namespace Sys2Proof.Machine

/-! ### Sources to inputs -/

/-- The word of a host command; none for a line event. -/
def commandWord (i : Instr) : Option HostWord :=
  match encode i with
  | .host w => some w
  | .line _ => none

/-- The word of a line form; none for a host command. -/
def lineFormWord (i : Instr) : Option LineWord :=
  match encode i with
  | .line w => some w
  | .host _ => none

/-- A cycle's inputs (R75): an omitted `L:` part is `0x000`, an omitted `H:` part no command; none when a part names an
instruction of the other port. -/
def assembleCycle (c : CycleSource) : Option Input :=
  if c.wf then
    some (.cycle ((c.line.bind lineFormWord).getD 0x000)
      (c.host.bind fun
        | .command i => commandWord i
        | .word w => some w))
  else none

/-- A cycle that presents a host command alone. -/
def hostCycle (i : Instr) : Input := .cycle 0x000 (commandWord i)

/-- A cycle that presents a line event alone. -/
def lineCycle (i : Instr) : Input := .cycle ((lineFormWord i).getD 0x000) none

/-- `TXFRAME` (R76): TX_START, a TX_BYTE for each byte, TX_END, in consecutive cycles. -/
def txFrame (d : List Byte) : List Input :=
  hostCycle .txStart :: (d.map fun b => hostCycle (.txByte b)) ++ [hostCycle .txEnd]

/-- `CRCBLOCK` (R77): CRC_INIT, then a CRC_BYTE for each byte. -/
def crcBlock (d : List Byte) : List Input :=
  hostCycle .crcInit :: d.map fun b => hostCycle (.crcByte b)

/-- `RXBYTES` (R78): an RX_BYTE for each byte. -/
def rxBytes (d : List Byte) : List Input := d.map fun b => lineCycle (.rxByte b)

/-- `RXFRAME` (R78): the bytes, then one cycle with RX_EOF. -/
def rxFrame (d : List Byte) : List Input := rxBytes d ++ [lineCycle .rxEof]

/-- `RDSTAT` (R79): `REG_READ 0x00`. -/
def rdStat : Input := hostCycle (.regRead (regNumber .status))

/-- The inputs of one source line. -/
def assemble : Source → Option (List Input)
  | .cycle c => (assembleCycle c).map fun i => [i]
  | .txFrame d => some (txFrame d)
  | .crcBlock d => some (crcBlock d)
  | .rxFrame d => some (rxFrame d)
  | .rxBytes d => some (rxBytes d)
  | .rdStat => some [rdStat]

/-! ### Text. R74 and R75 give the words; spacing, commas and letter case are DESIGN CHOICE (log 14). -/

/-- The value of a hexadecimal digit, either case. -/
def hexDigit (c : Char) : Option Nat :=
  if '0' ≤ c ∧ c ≤ '9' then some (c.toNat - '0'.toNat)
  else if 'a' ≤ c ∧ c ≤ 'f' then some (c.toNat - 'a'.toNat + 10)
  else if 'A' ≤ c ∧ c ≤ 'F' then some (c.toNat - 'A'.toNat + 10)
  else none

/-- Digits in a base, most significant first, from an accumulated value. -/
def readDigits (base : Nat) : Nat → List Char → Option Nat
  | acc, [] => some acc
  | acc, c :: cs =>
    match hexDigit c with
    | some v => if v < base then readDigits base (acc * base + v) cs else none
    | none => none

/-- A number, `0x..` hexadecimal or decimal (R74). -/
def readNumber : List Char → Option Nat
  | [] => none
  | ['0', 'x'] => none
  | '0' :: 'x' :: ds => readDigits 16 0 ds
  | ds => readDigits 10 0 ds

/-- A byte operand; a number above 255 has no encoding (R63). -/
def readByte (t : List Char) : Option Byte :=
  match readNumber t with
  | some n => if n < 256 then some (BitVec.ofNat 8 n) else none
  | none => none

/-- A 16-bit word operand of `.word` (R74). -/
def readWord (t : List Char) : Option HostWord :=
  match readNumber t with
  | some n => if n < 65536 then some (BitVec.ofNat 16 n) else none
  | none => none

/-- The name of a register (R40, R74). -/
def regName : Reg → String
  | .status => "STATUS"
  | .cacc => "CACC"
  | .tacc => "TACC"
  | .racc => "RACC"
  | .rlen => "RLEN"
  | .rraw => "RRAW"
  | .llen => "LLEN"
  | .lrecv => "LRECV"
  | .lcalc => "LCALC"
  | .fcnt => "FCNT"
  | .param => "PARAM"

/-- The registers, in the order of their numbers (R40). -/
def allRegs : List Reg :=
  [.status, .cacc, .tacc, .racc, .rlen, .rraw, .llen, .lrecv, .lcalc, .fcnt, .param]

/-- A register operand, by name or by number; a reserved number is a legal operand (R72, R74). -/
def readRegister (t : List Char) : Option Byte :=
  match allRegs.find? fun r => regName r == String.ofList t with
  | some r => some (regNumber r)
  | none => readByte t

/-- Characters that part tokens: blanks, tabs, and the commas of a byte list (R76). -/
def isSeparator (c : Char) : Bool := c == ' ' || c == '\t' || c == ','

/-- The tokens of a line up to its comment `;` (R75); `tok` is the token being read, last character first. -/
def readTokens : List Char → List Char → List (List Char)
  | [], tok => if tok.isEmpty then [] else [tok.reverse]
  | c :: cs, tok =>
    if c == ';' then (if tok.isEmpty then [] else [tok.reverse])
    else if isSeparator c then (if tok.isEmpty then readTokens cs [] else tok.reverse :: readTokens cs [])
    else readTokens cs (c :: tok)

/-- An `H:` command (R74, R79). -/
def readCommand (ts : List (List Char)) : Option HostSource :=
  match ts with
  | [m] =>
    match String.ofList m with
    | "NOP" => some (.command .nop)
    | "CRC_INIT" => some (.command .crcInit)
    | "TX_START" => some (.command .txStart)
    | "TX_END" => some (.command .txEnd)
    | "RESET" => some (.command .reset)
    | "RDSTAT" => some (.command (.regRead (regNumber .status)))
    | _ => none
  | [m, x] =>
    match String.ofList m with
    | "CRC_BYTE" => (readByte x).map fun b => .command (.crcByte b)
    | "TX_BYTE" => (readByte x).map fun b => .command (.txByte b)
    | "REG_READ" => (readRegister x).map fun n => .command (.regRead n)
    | ".word" => (readWord x).map .word
    | _ => none
  | _ => none

/-- An `L:` line form (R75). -/
def readLineForm (ts : List (List Char)) : Option Instr :=
  match ts with
  | [m] =>
    match String.ofList m with
    | "IDLE" => some .lineIdle
    | "RX_EOF" => some .rxEof
    | _ => none
  | [m, x] =>
    match String.ofList m with
    | "RX_BYTE" => (readByte x).map .rxByte
    | "RX_BYTE_EOF" => (readByte x).map .rxByteEof
    | _ => none
  | _ => none

/-- The part of a cycle's tokens before `H:`, and the part after it, if there is one. -/
def splitAtHost : List (List Char) → List (List Char) × Option (List (List Char))
  | [] => ([], none)
  | t :: ts =>
    if t == ['H', ':'] then ([], some ts)
    else ((t :: (splitAtHost ts).1), (splitAtHost ts).2)

/-- The `H:` part of a cycle; omitted, there is no command. -/
def readHostPart : Option (List (List Char)) → Option (Option HostSource)
  | none => some none
  | some ts => (readCommand ts).map some

/-- The `L:` part of a cycle; omitted, there is no line form. -/
def readLinePart : List (List Char) → Option (Option Instr)
  | [] => some none
  | t :: ts => if t == ['L', ':'] then (readLineForm ts).map some else none

/-- A cycle, `[L: <line-form>] [H: <command>]` (R75). -/
def readCycle (ts : List (List Char)) : Option Source :=
  match readLinePart (splitAtHost ts).1, readHostPart (splitAtHost ts).2 with
  | some l, some h => some (.cycle { line := l, host := h })
  | _, _ => none

/-- The bytes of a pseudo-instruction; any that is no byte refuses the line. -/
def readBytes (ts : List (List Char)) : Option (List Byte) := ts.mapM readByte

/-- A source line from its tokens: a pseudo-instruction by its first word, otherwise a cycle. -/
def readSource (ts : List (List Char)) : Option Source :=
  match ts with
  | [] => readCycle []
  | t :: rest =>
    match String.ofList t with
    | "TXFRAME" => (readBytes rest).map .txFrame
    | "CRCBLOCK" => (readBytes rest).map .crcBlock
    | "RXFRAME" => (readBytes rest).map .rxFrame
    | "RXBYTES" => (readBytes rest).map .rxBytes
    | "RDSTAT" => if rest.isEmpty then some .rdStat else none
    | _ => readCycle (t :: rest)

/-- The inputs of one line of text; none where the line is no source line. -/
def assembleLine (text : String) : Option (List Input) :=
  (readSource (readTokens text.toList [])).bind assemble

end Sys2Proof.Machine
end

