-- ==== Sys2Proof/Machine/FrameCodec.lean ====
section
/-! DEFINITION. The source's functions over byte lists, which the streaming channels render: `encode(payload)`,
`strip_idle_padding`, `validate` (41_generator.md, 42_framer.md), and what R106 says one receive window reports. -/

namespace Sys2Proof.Machine

/-- The source's `encode(payload)`: the payload, then `crc16(payload)` low byte first (R49, R92). -/
def encodeFrame (d : List Byte) : List Byte := d ++ [lowByte (crc16 d), highByte (crc16 d)]

/-- The source's `strip_idle_padding`: the longest prefix of `0xFF` bytes removed, nothing after it (R100). -/
def stripIdle : List Byte → List Byte
  | [] => []
  | b :: r => if b = idleByte then stripIdle r else b :: r

/-- `d[:-2]` (R12). -/
def frameBody (d : List Byte) : List Byte := d.take (d.length - 2)

/-- The last two bytes of a list of two or more, little-endian (R50). -/
def lastTwo (d : List Byte) : Word := joinBytes (d.getD (d.length - 1) 0) (d.getD (d.length - 2) 0)

/-- The source's `validate(frame)`: "length ≥ 3 and the last two bytes (little-endian) equal crc16(frame[:-2])". -/
def validate (d : List Byte) : Bool := decide (3 ≤ d.length) && lastTwo d == crc16 (frameBody d)

/-- The verdict of a window whose raw bytes are `r`, in R106's words. -/
def windowVerdict (maxRaw : Nat) (r : List Byte) : Verdict :=
  if r.length = 0 then .noData
  else if (stripIdle (r.take maxRaw)).length < 3 then .short
  else if validate (stripIdle (r.take maxRaw)) then .ok
  else .crcErr

/-- The events R106 gives a window whose raw bytes are `r`: the frame bytes but the last two, then FRAME_END. -/
def windowEvents (maxRaw : Nat) (r : List Byte) : List FrameEvent :=
  (frameBody (stripIdle (r.take maxRaw))).map .byte
    ++ [.finish (windowVerdict maxRaw r) (decide (maxRaw < r.length))
          (BitVec.ofNat 16 (stripIdle (r.take maxRaw)).length)]

end Sys2Proof.Machine
end

