-- ==== Sys2Proof/Safety.lean ====
section
/-! DEFINITION. What claims about FMCODEC are stated in: runs, what an input holds, the first-error state of R121, the
invariants of 10_state.md R43, a window that has just opened, quiescence (R150), and the framer's own part of the state. -/

namespace Sys2Proof.Machine

/-- The state an outcome goes on in. -/
def nextOf : Host.Outcome State Fault Refusal → Option State
  | .next s => some s
  | .fault _ => none
  | .refused _ => none

/-- `n` steps of the machine. -/
abbrev runSteps (n : Nat) (s : State) : Host.Outcome State Fault Refusal := Host.Core.run Sys2Proof.core n s

/-! ### What an input holds -/

/-- The legal host command of an input, if it has one. -/
def commandOf : Input → Option Instr
  | .hardwareReset => none
  | .cycle _ none => none
  | .cycle _ (some w) =>
    match decodeHost w with
    | .ok i => some i
    | .error _ => none

/-- The line byte of an input, if its line word is valid (R66). -/
def lineByteOf : Input → Option Byte
  | .hardwareReset => none
  | .cycle l _ => if validBit l then some (dataField l) else none

/-- The input closes a receive window: its line word signals the end of frame (R66). -/
def endsFrame : Input → Bool
  | .hardwareReset => false
  | .cycle l _ => eofBit l

/-- The input resets FMCODEC: the hardware reset, or a `RESET` command (R136). -/
def resets (i : Input) : Bool := i == .hardwareReset || commandOf i == some .reset

/-- The command of an input that reads or writes the generator: TX_START, TX_BYTE, TX_END, RESET (R24, R25). -/
def generatorCommand (i : Input) : Option Instr :=
  match commandOf i with
  | some .txStart => some .txStart
  | some (.txByte b) => some (.txByte b)
  | some .txEnd => some .txEnd
  | some .reset => some .reset
  | _ => none

/-- A FRAME_END event. -/
def isFinish : FrameEvent → Bool
  | .byte _ => false
  | .finish _ _ _ => true

/-! ### States -/

/-- The state after a command error `e` and nothing else (R121). -/
def withFirstError (e : CmdError) (s : State) : State :=
  { s with cerr := true, ecode := if s.cerr then s.ecode else some e }

/-- R43 (a) to (e): RXS, RLEN, RRAW, HCNT, ROVF and MAX_RAW agree. -/
structure WindowInv (s : State) : Prop where
  hunt : s.rxs = .hunt → s.rlen = 0 ∧ s.hold = .empty
  frame : s.rxs = .frame → 1 ≤ s.rlen.toNat
  holdCount : (holdList s.hold).length = min s.rlen.toNat 2
  bounds : s.rlen.toNat ≤ s.rraw.toNat ∧ s.rraw.toNat ≤ s.config.maxRaw.toNat
  overflow : s.rovf = true → s.rraw = s.config.maxRaw

/-- `f` is the list of frame bytes of the open window (R28, R29, R43 (f)): RLEN counts it, HOLD is its last
`min(RLEN, 2)` bytes, and RACC is `crc16` of the rest. -/
def FrameBytes (s : State) (f : List Byte) : Prop :=
  f.length = s.rlen.toNat ∧ f = frameBody f ++ holdList s.hold ∧ s.racc = crc16 (frameBody f)

/-- R43 (g): CERR is clear exactly when ECODE is NONE. -/
def ErrorInv (s : State) : Prop := s.cerr = false ↔ s.ecode = none

/-- R43 (h): the last verdict is OK or CRC_ERR exactly when LLEN is 3 or more, and OK only if the check values agree. -/
def VerdictInv (s : State) : Prop :=
  ((s.lverd = some .ok ∨ s.lverd = some .crcErr) ↔ 3 ≤ s.llen.toNat) ∧ (s.lverd = some .ok → s.lrecv = s.lcalc)

/-- The invariants of R43, all of them. -/
structure Inv (s : State) : Prop where
  window : WindowInv s
  frameBytes : ∃ f, FrameBytes s f
  error : ErrorInv s
  verdict : VerdictInv s

/-- No generated frame and no receive window is partly done (R150). -/
def Quiescent (s : State) : Prop := s.txs = .idle ∧ s.rxs = .hunt ∧ s.rraw = 0

/-- A receive window has just opened: the framer is as `close_window` (R103) and reset (R136) leave it. -/
def FreshWindow (s : State) : Prop :=
  s.rxs = .hunt ∧ s.racc = 0xFFFF ∧ s.hold = .empty ∧ s.rlen = 0 ∧ s.rraw = 0 ∧ s.rovf = false

/-- Two states agree on MAX_RAW and on everything the framer reads: RXS, RACC, HOLD, RLEN, RRAW, ROVF. -/
def SameFramer (s t : State) : Prop :=
  s.config = t.config ∧ s.rxs = t.rxs ∧ s.racc = t.racc ∧ s.hold = t.hold ∧ s.rlen = t.rlen ∧ s.rraw = t.rraw ∧
    s.rovf = t.rovf

/-- Two states agree on everything the generator reads: TXS and TACC. -/
def SameGenerator (s t : State) : Prop := s.txs = t.txs ∧ s.tacc = t.tacc

end Sys2Proof.Machine
end

