-- ==== Sys2Proof/Certificates/Slice0/Obligations.lean ====
section
/-! DEFINITION. The statements for the provers, from the numbered rules of spec/. A word written `op ++ opd` is the host
command word with those fields (R62), and `0b01#2 ++ b` the line word with EOF = 0, VALID = 1 and DATA = b (R66). -/

open Sys2Proof Sys2Proof.Machine

/-! ### Encoding -/

/-- R64, R65: `decode_H` opcode by opcode, the match and mask of each row, and the census of the 65536 words. -/
def Obligations.HostDecoderFollowsTheOpcodeMap : Prop :=
  (∀ opd : Byte,
    decodeHost (0x00#8 ++ opd) = (if opd = 0 then .ok .nop else .error .badOperand) ∧
    decodeHost (0x01#8 ++ opd) = (if opd = 0 then .ok .crcInit else .error .badOperand) ∧
    decodeHost (0x02#8 ++ opd) = .ok (.crcByte opd) ∧
    decodeHost (0x10#8 ++ opd) = (if opd = 0 then .ok .txStart else .error .badOperand) ∧
    decodeHost (0x11#8 ++ opd) = .ok (.txByte opd) ∧
    decodeHost (0x12#8 ++ opd) = (if opd = 0 then .ok .txEnd else .error .badOperand) ∧
    decodeHost (0x20#8 ++ opd) = .ok (.regRead opd) ∧
    decodeHost (0x30#8 ++ opd) = (if opd = 0 then .ok .reset else .error .badOperand)) ∧
  (∀ op opd : Byte, op ∉ [0x00#8, 0x01, 0x02, 0x10, 0x11, 0x12, 0x20, 0x30] →
    decodeHost (op ++ opd) = .error .undefOp) ∧
  (∀ (w : HostWord) (i : Instr), decodeHost w = .ok i →
    (hostRows.filter fun r => r.selects w.toNat).map OpcodeRow.mnemonic = [i.mnemonic]) ∧
  (∀ (w : HostWord) (e : CmdError), decodeHost w = .error e → (hostRows.filter fun r => r.selects w.toNat) = []) ∧
  Nat.card { w : HostWord // ∃ i, decodeHost w = .ok i } = 773 ∧
  Nat.card { w : HostWord // decodeHost w = .error .badOperand } = 1275 ∧
  Nat.card { w : HostWord // decodeHost w = .error .undefOp } = 63488

/-- R67: the four forms of a line word, whatever DATA is, and the row each selects; when VALID is 0 the value of DATA
has no effect on any state or output. -/
def Obligations.LineDecoderIsTotalAndIgnoresUnusedData : Prop :=
  (∀ data : Byte,
    decodeLine (0b00#2 ++ data) = .lineIdle ∧
    decodeLine (0b01#2 ++ data) = .rxByte data ∧
    decodeLine (0b10#2 ++ data) = .rxEof ∧
    decodeLine (0b11#2 ++ data) = .rxByteEof data) ∧
  (∀ l : LineWord, (lineRows.filter fun r => r.selects l.toNat).map OpcodeRow.mnemonic = [(decodeLine l).mnemonic]) ∧
  (∀ (x y : Byte) (c : Option HostWord) (s : State),
    cycle (0b00#2 ++ x) c s = cycle (0b00#2 ++ y) c s ∧ cycle (0b10#2 ++ x) c s = cycle (0b10#2 ++ y) c s)

/-- Decoding the word the encoder gives an instruction gives the instruction back, every operand at every value. -/
def Obligations.DecodeOfEncodeIsTheInstruction : Prop :=
  ∀ i : Instr, decode (encode i) = .ok i

/-- A word that decodes is the encoder's word for what it decodes to, but for DATA bits that are ignored. -/
def Obligations.EncodeOfDecodeIsTheCanonicalWord : Prop :=
  ∀ (p : PortWord) (i : Instr), decode p = .ok i → encode i = p.canonical

/-- R80: the encoding examples. -/
def Obligations.EncodingWorkedExamples : Prop :=
  encode (.crcByte 0x41) = .host 0x0241 ∧ decodeHost 0x0241 = .ok (.crcByte 0x41) ∧
  encode (.txByte 0xFD) = .host 0x11FD ∧ decodeHost 0x11FD = .ok (.txByte 0xFD) ∧
  encode (.regRead (regNumber .fcnt)) = .host 0x2009 ∧ decodeHost 0x2009 = .ok (.regRead 0x09) ∧
  encode .reset = .host 0x3000 ∧ decodeHost 0x3000 = .ok .reset ∧
  decodeHost 0x3001 = .error .badOperand ∧ decodeHost 0x4000 = .error .undefOp ∧
  encode (.rxByte 0xFF) = .line 0x1FF ∧ decodeLine 0x1FF = .rxByte 0xFF ∧
  encode (.rxByteEof 0x16) = .line 0x316 ∧ decodeLine 0x316 = .rxByteEof 0x16 ∧
  encode .rxEof = .line 0x200 ∧ decodeLine 0x200 = .rxEof ∧ decodeLine 0x2AB = .rxEof

/-- R69: the layout of an RX frame word, field by field; the bits shown as 0 are always 0; and a consumer's decoder
reads every event back. -/
def Obligations.FrameWordLayout : Prop :=
  (∀ b : Byte, (FrameEvent.byte b).word = b.setWidth 32) ∧
  (∀ (v : Verdict) (ovf : Bool) (n : Word),
    (FrameEvent.finish v ovf n).word.getLsbD 31 = true ∧
    (FrameEvent.finish v ovf n).word.extractLsb' 28 3 = v.code ∧
    (FrameEvent.finish v ovf n).word.getLsbD 27 = ovf ∧
    (FrameEvent.finish v ovf n).word.extractLsb' 16 11 = 0 ∧
    (FrameEvent.finish v ovf n).word.extractLsb' 0 16 = n) ∧
  (∀ e : FrameEvent, frameEventOfWord e.word = some e)

/-! ### The step -/

/-- R117: a presented cycle performs the line byte, then the end of frame, then the decoded command or its command
error, each seeing the state the part before it left; and there always is a next state. -/
def Obligations.StepPerformsTheCycle : Prop :=
  ∀ (s : State) (l : LineWord) (c : Option HostWord) (rest : List Input), s.inputs = .cycle l c :: rest →
    ∃ s₁ s₂ t : State,
      (if l.getLsbD 8 then exec (.rxByte (l.extractLsb' 0 8)) { s with inputs := rest }
        else .next { s with inputs := rest }) = .next s₁ ∧
      (if l.getLsbD 9 then exec .rxEof s₁ else .next s₁) = .next s₂ ∧
      (match c.map decodeHost with
        | none => (Host.Outcome.next s₂ : Host.Outcome State Fault Refusal)
        | some (.ok i) => exec i s₂
        | some (.error e) => .next (withFirstError e s₂)) = .next t ∧
      step s = .next t

/-- A step runs the decoded instruction: alone on its port, an instruction's word makes the step `exec` of it; with both
ports used, the command runs after the line event. -/
def Obligations.StepRunsTheDecodedInstruction : Prop :=
  (∀ (s : State) (l : LineWord) (rest : List Input), s.inputs = .cycle l none :: rest →
    step s = exec (decodeLine l) { s with inputs := rest }) ∧
  (∀ (s : State) (w : HostWord) (i : Instr) (rest : List Input), decodeHost w = .ok i →
    s.inputs = .cycle 0x000 (some w) :: rest → step s = exec i { s with inputs := rest }) ∧
  (∀ (s : State) (l : LineWord) (w : HostWord) (i : Instr) (rest : List Input), decodeHost w = .ok i →
    s.inputs = .cycle l (some w) :: rest →
    ∃ u, exec (decodeLine l) { s with inputs := rest } = .next u ∧ step s = exec i u)

/-- The model's choice (log 2), from R19's absent inputs: with nothing left to present, a step is an idle cycle. -/
def Obligations.StepWithNothingPresentedIsIdle : Prop :=
  ∀ s : State, s.inputs = [] → step s = .next s ∧ cycle 0x000 none s = .next s

/-- R135: no input sequence stops FMCODEC. -/
def Obligations.NoInputSequenceStopsTheMachine : Prop :=
  ∀ (n : Nat) (s : State), ∃ t, runSteps n s = .next t

/-- The model's own convention (log 6): a word presented by `withFetchWord` is run by the very next step, and nothing
else has changed. -/
def Obligations.PresentedWordRunsNext : Prop :=
  (∀ (s : State) (w : HostWord) (i : Instr), decodeHost w = .ok i → step (s.withFetchWord 16 w.toNat) = exec i s) ∧
  (∀ (s : State) (l : LineWord), step (s.withFetchWord 10 l.toNat) = exec (decodeLine l) s)

/-! ### The CRC functions -/

/-- R81: the byte-update function as the rule's loop, and its example. -/
def Obligations.CrcStepFollowsTheLoop : Prop :=
  (∀ (acc : Word) (b : Byte),
    crcStep acc b =
      (fun a : Word => if a &&& 1 = 1 then (a >>> 1) ^^^ 0xA001 else a >>> 1)^[8] (acc ^^^ b.setWidth 16)) ∧
  crcStep 0xFFFF 0xFD = 0xC17E

/-- R82: `crc16` is the fold from `0xFFFF`, with the rule's consequences. -/
def Obligations.CrcOfConcatenationContinues : Prop :=
  (∀ d : List Byte, crc16 d = d.foldl crcStep 0xFFFF) ∧
  crc16 [] = 0xFFFF ∧
  (∀ d e : List Byte, crc16 (d ++ e) = e.foldl crcStep (crc16 d)) ∧
  crc16 [0xFD, 0x46, 0x01] = 0x9013

/-- R83: linearity over GF(2) in the pair, the zero fixed point, and the 256-entry table form by linearity. -/
def Obligations.CrcStepIsLinear : Prop :=
  (∀ (a₁ a₂ : Word) (b₁ b₂ : Byte), crcStep (a₁ ^^^ a₂) (b₁ ^^^ b₂) = crcStep a₁ b₁ ^^^ crcStep a₂ b₂) ∧
  crcStep 0 0 = 0 ∧
  (∀ (acc : Word) (b : Byte), crcStep acc b = (acc >>> 8) ^^^ crcStep 0 (acc.setWidth 8 ^^^ b))

/-- R95's injectivity step: over a fixed byte list, `crc_step` folded is injective in its starting accumulator. -/
def Obligations.CrcFoldIsInjectiveInTheAccumulator : Prop :=
  ∀ (d : List Byte) (a₁ a₂ : Word), crcFold a₁ d = crcFold a₂ d → a₁ = a₂

/-! ### The CRC channel -/

/-- R84: `CRC_INIT`, its encoding, and its BAD_OPERAND words. -/
def Obligations.CrcInitSetsTheAccumulator : Prop :=
  decodeHost 0x0100 = .ok .crcInit ∧
  (∀ s : State, exec .crcInit s = .next { s with cacc := 0xFFFF }) ∧
  (∀ (opd : Byte) (s : State), opd ≠ 0 → performCommand (some (0x01#8 ++ opd)) s = .next (withFirstError .badOperand s))

/-- `CRC_BYTE b` for every byte (R85), what it computes after `CRC_INIT`, and which values of CACC a zero byte leaves as
they are. R85's corner case says only `0x0000`; by R81 itself `0xC001` is a second one, and the model follows R81
(log 16). -/
def Obligations.CrcByteFeedsTheAccumulator : Prop :=
  (∀ b : Byte, decodeHost (0x02#8 ++ b) = .ok (.crcByte b)) ∧
  (∀ (b : Byte) (s : State), exec (.crcByte b) s = .next { s with cacc := crcStep s.cacc b }) ∧
  crcStep 0xFFFF 0x00 = 0x40BF ∧ crcStep 0x0000 0x00 = 0x0000 ∧ crcStep 0xFFFF 0x41 = 0x707F ∧
  (∀ acc : Word, crcStep acc 0 = acc ↔ acc = 0x0000 ∨ acc = 0xC001) ∧
  (∀ (d : List Byte) (s : State),
    d.foldl (fun o b => andThen o (exec (.crcByte b))) (exec .crcInit s) = .next { s with cacc := crc16 d })

/-! ### The generator -/

/-- R89: `TX_START`. -/
def Obligations.TxStartOpensAFrame : Prop :=
  decodeHost 0x1000 = .ok .txStart ∧
  (∀ s : State, s.txs = .idle → exec .txStart s = .next { s with txs := .payload, tacc := 0xFFFF }) ∧
  (∀ s : State, s.txs = .payload → exec .txStart s = .next (withFirstError .seq s)) ∧
  (∀ (opd : Byte) (s : State), opd ≠ 0 → performCommand (some (0x10#8 ++ opd)) s = .next (withFirstError .badOperand s))

/-- R90: `TX_BYTE b`. -/
def Obligations.TxByteEmitsAndAccumulates : Prop :=
  (∀ b : Byte, decodeHost (0x11#8 ++ b) = .ok (.txByte b)) ∧
  (∀ (b : Byte) (s : State), s.txs = .payload →
    exec (.txByte b) s = .next { s with tacc := crcStep s.tacc b, out := s.out ++ [.tx b] }) ∧
  (∀ (b : Byte) (s : State), s.txs = .idle → exec (.txByte b) s = .next (withFirstError .seq s))

/-- R91: `TX_END`: the low byte of TACC, then the high byte. -/
def Obligations.TxEndAppendsTheCheckField : Prop :=
  decodeHost 0x1200 = .ok .txEnd ∧
  (∀ s : State, s.txs = .payload →
    exec .txEnd s =
      .next { s with
        txs := .idle
        out := s.out ++ [.tx (s.tacc.extractLsb' 0 8), .tx (s.tacc.extractLsb' 8 8)] }) ∧
  (∀ s : State, s.txs = .idle → exec .txEnd s = .next (withFirstError .seq s)) ∧
  (∀ (opd : Byte) (s : State), opd ≠ 0 → performCommand (some (0x12#8 ++ opd)) s = .next (withFirstError .badOperand s))

/-- R92: whatever cycles carry them, the commands of `TXFRAME d` put `d ++ [crc16(d)[7:0], crc16(d)[15:8]]` on the TX
output; line events, CRC channel commands, NOP, REG_READ, illegal words and empty slots between them change nothing of
it. `TXFRAME d` itself is such a sequence, of `k + 2` cycles. -/
def Obligations.GeneratedFrameIsEncodeOfThePayload : Prop :=
  (∀ (d : List Byte) (ins rest : List Input) (s : State),
    s.inputs = ins ++ rest → (∀ i ∈ ins, i ≠ .hardwareReset) → s.txs = .idle →
    ins.filterMap generatorCommand = .txStart :: d.map .txByte ++ [.txEnd] →
    ∃ t : State, runSteps ins.length s = .next t ∧ t.inputs = rest ∧
      txPort t.out = txPort s.out ++ d ++ [(crc16 d).extractLsb' 0 8, (crc16 d).extractLsb' 8 8] ∧
      t.txs = .idle ∧ t.tacc = crc16 d) ∧
  (∀ d : List Byte, (txFrame d).length = d.length + 2 ∧ (∀ i ∈ txFrame d, i ≠ .hardwareReset) ∧
    (txFrame d).filterMap generatorCommand = .txStart :: d.map .txByte ++ [.txEnd])

/-! ### Control, registers, reset, errors -/

/-- R111 and R97: `NOP` and `LINE_IDLE` have no effect, and a cycle with `NOP` is a cycle with no command. -/
def Obligations.NopAndLineIdleChangeNothing : Prop :=
  decodeHost 0x0000 = .ok .nop ∧
  (∀ s : State, exec .nop s = .next s) ∧
  (∀ (opd : Byte) (s : State), opd ≠ 0 → performCommand (some (0x00#8 ++ opd)) s = .next (withFirstError .badOperand s)) ∧
  (∀ (l : LineWord) (s : State), cycle l (some 0x0000) s = cycle l none s) ∧
  (∀ data : Byte, decodeLine (0b00#2 ++ data) = .lineIdle) ∧
  (∀ s : State, exec .lineIdle s = .next s)

/-- R112: `REG_READ n`, register by register; a reserved number responds `0x0000` and raises BAD_REG. Repeating a read
of an implemented register responds the same word. -/
def Obligations.RegReadRespondsWithTheRegister : Prop :=
  (∀ n : Byte, decodeHost (0x20#8 ++ n) = .ok (.regRead n)) ∧
  (∀ (n : Byte) (v : Word) (s : State),
    (n, v) ∈ [(0x00#8, statusWord s), (0x01, s.cacc), (0x02, s.tacc), (0x03, s.racc), (0x04, s.rlen), (0x05, s.rraw),
      (0x06, s.llen), (0x07, s.lrecv), (0x08, s.lcalc), (0x09, s.fcnt), (0x0A, s.config.maxRaw)] →
    exec (.regRead n) s = .next { s with out := s.out ++ [.response v] } ∧
    andThen (exec (.regRead n) s) (exec (.regRead n)) =
      .next { s with out := s.out ++ [.response v, .response v] }) ∧
  (∀ (n : Byte) (s : State), 0x0B ≤ n.toNat →
    exec (.regRead n) s = .next (withFirstError .badReg { s with out := s.out ++ [.response 0] }))

/-- R41: the fields of STATUS, and its reset value. -/
def Obligations.StatusWordFields : Prop :=
  (∀ s : State,
    (statusWord s).getLsbD 0 = decide (s.txs = .payload) ∧
    (statusWord s).getLsbD 1 = decide (s.rxs = .frame) ∧
    (statusWord s).extractLsb' 2 2 = BitVec.ofNat 2 (holdList s.hold).length ∧
    (statusWord s).getLsbD 4 = s.rovf ∧
    (statusWord s).getLsbD 5 = s.cerr ∧
    (statusWord s).extractLsb' 6 3 = (match s.ecode with
      | none => 0
      | some .undefOp => 1
      | some .badOperand => 2
      | some .seq => 3
      | some .badReg => 4) ∧
    (statusWord s).extractLsb' 9 3 = (match s.lverd with
      | none => 0
      | some .ok => 1
      | some .crcErr => 2
      | some .short => 3
      | some .noData => 4) ∧
    (statusWord s).getLsbD 12 = s.lovf ∧
    (statusWord s).extractLsb' 13 3 = 0) ∧
  statusWord State.reset = 0x0000

/-- R113: `RESET`: every element at its reset value, what was emitted stays, in the same cycle as line events too; with
a nonzero operand nothing is reset. -/
def Obligations.ResetCommandRestoresTheResetState : Prop :=
  decodeHost 0x3000 = .ok .reset ∧
  (∀ s : State,
    exec .reset s = .next { State.reset with config := s.config, inputs := s.inputs, out := s.out }) ∧
  (∀ (l : LineWord) (s : State), ∃ u t : State, exec (decodeLine l) s = .next u ∧ cycle l (some 0x3000) s = .next t ∧
    t = { State.reset with config := s.config, inputs := s.inputs, out := u.out } ∧ statusWord t = 0) ∧
  (∀ (opd : Byte) (s : State), opd ≠ 0 → performCommand (some (0x30#8 ++ opd)) s = .next (withFirstError .badOperand s))

/-- R136: the reset value of every state element, and the two reset events with one effect. -/
def Obligations.BothResetsApplyTheResetValues : Prop :=
  (State.reset.cacc = 0xFFFF ∧ State.reset.txs = .idle ∧ State.reset.tacc = 0xFFFF ∧ State.reset.rxs = .hunt ∧
    State.reset.racc = 0xFFFF ∧ State.reset.hold = .empty ∧ State.reset.rlen = 0 ∧ State.reset.rraw = 0 ∧
    State.reset.rovf = false ∧ State.reset.lverd = none ∧ State.reset.lovf = false ∧ State.reset.llen = 0 ∧
    State.reset.lrecv = 0 ∧ State.reset.lcalc = 0 ∧ State.reset.fcnt = 0 ∧ State.reset.cerr = false ∧
    State.reset.ecode = none ∧ statusWord State.reset = 0) ∧
  (∀ (s : State) (rest : List Input), s.inputs = .hardwareReset :: rest →
    step s = exec .reset { s with inputs := rest } ∧
    step s = .next { State.reset with config := s.config, inputs := rest, out := s.out })

/-- R120, R121: what raises each command error; CERR is set, the first code since reset is kept, and the command has no
other effect but the `0x0000` of a BAD_REG read. -/
def Obligations.CommandErrorRecordsTheFirstCode : Prop :=
  (∀ (e : CmdError) (s : State),
    raiseCmdError e s = if s.cerr = false then { s with cerr := true, ecode := some e } else s) ∧
  (∀ (w : HostWord) (e : CmdError) (s : State), decodeHost w = .error e →
    performCommand (some w) s = .next (raiseCmdError e s)) ∧
  (∀ (i : Instr) (s : State),
    (i = .txStart ∧ s.txs = .payload) ∨ ((∃ b, i = .txByte b) ∧ s.txs = .idle) ∨ (i = .txEnd ∧ s.txs = .idle) →
    exec i s = .next (raiseCmdError .seq s)) ∧
  (∀ (n : Byte) (s : State), 0x0B ≤ n.toNat →
    exec (.regRead n) s = .next (raiseCmdError .badReg { s with out := s.out ++ [.response 0x0000] })) ∧
  ecodeBits none = 0 ∧ ecodeBits (some .undefOp) = 1 ∧ ecodeBits (some .badOperand) = 2 ∧ ecodeBits (some .seq) = 3 ∧
  ecodeBits (some .badReg) = 4

/-- R134: an illegal word leaves the line part of its cycle as it would be without it, and a command that raises an
error leaves framer, generator and CACC alone; no line event sets CERR or ECODE. -/
def Obligations.ErrorsAndVerdictsAreContained : Prop :=
  (∀ (l : LineWord) (w : HostWord) (e : CmdError) (s : State), decodeHost w = .error e →
    ∃ t : State, cycle l none s = .next t ∧ cycle l (some w) s = .next (withFirstError e t)) ∧
  (∀ (i : Instr) (s : State),
    (i = .txStart ∧ s.txs = .payload) ∨ ((∃ b, i = .txByte b) ∧ s.txs = .idle) ∨ (i = .txEnd ∧ s.txs = .idle) ∨
      (∃ n, i = .regRead n ∧ 0x0B ≤ n.toNat) →
    ∃ t : State, exec i s = .next t ∧ t.cerr = true ∧ SameFramer s t ∧ SameGenerator s t ∧ t.cacc = s.cacc ∧
      t.lverd = s.lverd ∧ t.fcnt = s.fcnt) ∧
  (∀ (i : Instr) (s t : State), i.isLine = true → exec i s = .next t → t.cerr = s.cerr ∧ t.ecode = s.ecode)

/-- R38, R127: CERR is clear at reset, the first command error sets it, CERR and ECODE then stay as they are through
every step that does not reset, later errors included, and a step that resets clears them. -/
def Obligations.FirstErrorIsKeptUntilReset : Prop :=
  State.reset.cerr = false ∧
  (∀ (e : CmdError) (s : State), (raiseCmdError e s).cerr = true) ∧
  (∀ s t : State, s.cerr = true → resets (nextInput s) = false → step s = .next t →
    t.cerr = true ∧ t.ecode = s.ecode) ∧
  (∀ s : State, resets (nextInput s) = true → ∃ t, step s = .next t ∧ t.cerr = false ∧ t.ecode = none)

/-- R45: no command or line event but a read of STATUS depends on CERR, ECODE, LVERD or LOVF. -/
def Obligations.NothingDependsOnTheReportedErrors : Prop :=
  ∀ (i : Instr) (s : State) (c : Bool) (e : Option CmdError) (v : Option Verdict) (o : Bool), i ≠ .regRead 0x00 →
    ∃ t u : State, exec i s = .next t ∧ exec i { s with cerr := c, ecode := e, lverd := v, lovf := o } = .next u ∧
      u = { t with cerr := u.cerr, ecode := u.ecode, lverd := u.lverd, lovf := u.lovf }

/-- R22 with R23 to R39 and R118 (c): what each instruction may write, for every instruction. -/
def Obligations.InstructionsWriteOnlyTheirElements : Prop :=
  ∀ (i : Instr) (s t : State), exec i s = .next t →
    t.config = s.config ∧ t.inputs = s.inputs ∧
    (i ≠ .reset → i ≠ .crcInit → (∀ b, i ≠ .crcByte b) → t.cacc = s.cacc) ∧
    (i ≠ .reset → i ≠ .txStart → i ≠ .txEnd → t.txs = s.txs) ∧
    (i ≠ .reset → i ≠ .txStart → (∀ b, i ≠ .txByte b) → t.tacc = s.tacc) ∧
    (i.isHost = true → i ≠ .reset → SameFramer s t) ∧
    (i ≠ .reset → i ≠ .rxEof → (∀ b, i ≠ .rxByteEof b) →
      t.lverd = s.lverd ∧ t.lovf = s.lovf ∧ t.llen = s.llen ∧ t.lrecv = s.lrecv ∧ t.lcalc = s.lcalc ∧ t.fcnt = s.fcnt) ∧
    (i ≠ .reset → i ≠ .txStart → (∀ b, i ≠ .txByte b) → i ≠ .txEnd → (∀ n, i ≠ .regRead n) →
      t.cerr = s.cerr ∧ t.ecode = s.ecode) ∧
    (i.isLine = true → txPort t.out = txPort s.out ∧ responsePort t.out = responsePort s.out) ∧
    (i.isHost = true → rxPort t.out = rxPort s.out)

/-- R94: no coupling. What the generator commands do to TXS, TACC and the outputs depends on TXS and TACC alone, and
they leave the framer alone; what the line events do to the framer and the outputs depends on the framer (and MAX_RAW)
alone, and they leave TXS and TACC alone. -/
def Obligations.GeneratorAndFramerAreUncoupled : Prop :=
  (∀ (i : Instr) (s₁ s₂ : State), (i = .txStart ∨ (∃ b, i = .txByte b) ∨ i = .txEnd) → SameGenerator s₁ s₂ →
    ∃ (t₁ t₂ : State) (es : List PortEvent), exec i s₁ = .next t₁ ∧ exec i s₂ = .next t₂ ∧ SameGenerator t₁ t₂ ∧
      SameFramer s₁ t₁ ∧ t₁.out = s₁.out ++ es ∧ t₂.out = s₂.out ++ es) ∧
  (∀ (i : Instr) (s₁ s₂ : State), i.isLine = true → SameFramer s₁ s₂ →
    ∃ (t₁ t₂ : State) (es : List PortEvent), exec i s₁ = .next t₁ ∧ exec i s₂ = .next t₂ ∧ SameFramer t₁ t₂ ∧
      SameGenerator s₁ t₁ ∧ t₁.out = s₁.out ++ es ∧ t₂.out = s₂.out ++ es)

/-- R42: no step changes MAX_RAW, reset included, and PARAM reads it; it reads `0x0100` for the reference value. -/
def Obligations.MaxRawIsConstant : Prop :=
  (∀ s t : State, step s = .next t → t.config = s.config) ∧
  (∀ s : State, regValue s .param = s.config.maxRaw) ∧
  regValue { State.reset with config := { maxRaw := 256 } } .param = 0x0100

/-- R57, R118 (d): what is emitted stays, and the events of one step are RX frame events of the line part, at most two,
then TX bytes, at most two, or one response word, of the command. -/
def Obligations.StepAppendsLineEventsThenCommandEvents : Prop :=
  ∀ s t : State, step s = .next t →
    ∃ (rx : List FrameEvent) (tail : List PortEvent), t.out = s.out ++ rx.map .rx ++ tail ∧ rx.length ≤ 2 ∧
      ((∃ bs : List Byte, tail = bs.map .tx ∧ bs.length ≤ 2) ∨ ∃ w, tail = [.response w])

/-! ### The framer -/

/-- R98 and R99: `RX_BYTE b` in every state: dropped, stripped, starting the frame, or pushed into the hold line. -/
def Obligations.RxByteTakesALineByte : Prop :=
  (∀ b : Byte, decodeLine (0b01#2 ++ b) = .rxByte b) ∧
  (∀ (b : Byte) (s : State), s.rraw = s.config.maxRaw → exec (.rxByte b) s = .next { s with rovf := true }) ∧
  (∀ (b : Byte) (s : State), s.rraw ≠ s.config.maxRaw → s.rxs = .hunt → b = 0xFF →
    exec (.rxByte b) s = .next { s with rraw := s.rraw + 1 }) ∧
  (∀ (b : Byte) (s : State), s.rraw ≠ s.config.maxRaw → s.rxs = .hunt → b ≠ 0xFF →
    exec (.rxByte b) s = .next { s with rraw := s.rraw + 1, rxs := .frame, rlen := 1, hold := .one b }) ∧
  (∀ (b : Byte) (s : State), s.rraw ≠ s.config.maxRaw → s.rxs = .frame → s.hold = .empty →
    exec (.rxByte b) s = .next { s with rraw := s.rraw + 1, rlen := s.rlen + 1, hold := .one b }) ∧
  (∀ (b a : Byte) (s : State), s.rraw ≠ s.config.maxRaw → s.rxs = .frame → s.hold = .one a →
    exec (.rxByte b) s = .next { s with rraw := s.rraw + 1, rlen := s.rlen + 1, hold := .two a b }) ∧
  (∀ (b a c : Byte) (s : State), s.rraw ≠ s.config.maxRaw → s.rxs = .frame → s.hold = .two a c →
    exec (.rxByte b) s =
      .next { s with
        rraw := s.rraw + 1
        rlen := s.rlen + 1
        racc := crcStep s.racc a
        hold := .two c b
        out := s.out ++ [.rx (.byte a)] })

/-- R101, R102 and R103: `RX_EOF`, whatever DATA its word holds: the verdict in the order NO_DATA, SHORT, CRC test; the
report; the last-window registers; the new window. A window of stripped length 3 or more holds two bytes (R43). -/
def Obligations.RxEofReportsAndClosesTheWindow : Prop :=
  (∀ data : Byte, decodeLine (0b10#2 ++ data) = .rxEof) ∧
  (∀ s : State, s.rraw = 0 →
    exec .rxEof s =
      .next { s with
        out := s.out ++ [.rx (.finish .noData s.rovf s.rlen)]
        lverd := some .noData
        lovf := s.rovf
        llen := s.rlen
        lrecv := 0
        lcalc := 0
        fcnt := s.fcnt + 1
        rxs := .hunt, racc := 0xFFFF, hold := .empty, rlen := 0, rraw := 0, rovf := false }) ∧
  (∀ s : State, s.rraw ≠ 0 → s.rlen.toNat < 3 →
    exec .rxEof s =
      .next { s with
        out := s.out ++ [.rx (.finish .short s.rovf s.rlen)]
        lverd := some .short
        lovf := s.rovf
        llen := s.rlen
        lrecv := 0
        lcalc := 0
        fcnt := s.fcnt + 1
        rxs := .hunt, racc := 0xFFFF, hold := .empty, rlen := 0, rraw := 0, rovf := false }) ∧
  (∀ (a b : Byte) (s : State), s.rraw ≠ 0 → 3 ≤ s.rlen.toNat → s.hold = .two a b →
    ∃ v : Verdict, v = (if b ++ a = s.racc then .ok else .crcErr) ∧
      exec .rxEof s =
        .next { s with
          out := s.out ++ [.rx (.finish v s.rovf s.rlen)]
          lverd := some v
          lovf := s.rovf
          llen := s.rlen
          lrecv := b ++ a
          lcalc := s.racc
          fcnt := s.fcnt + 1
          rxs := .hunt, racc := 0xFFFF, hold := .empty, rlen := 0, rraw := 0, rovf := false }) ∧
  (∀ s : State, Inv s → 3 ≤ s.rlen.toNat → ∃ a b, s.hold = .two a b)

/-- R105: `RX_BYTE_EOF b` is `RX_BYTE b` in full, then `RX_EOF` in full on the window that now includes `b`. -/
def Obligations.RxByteEofIsTheByteThenTheEnd : Prop :=
  (∀ b : Byte, decodeLine (0b11#2 ++ b) = .rxByteEof b) ∧
  (∀ (b : Byte) (s : State), ∃ u t : State,
    exec (.rxByte b) s = .next u ∧ exec .rxEof u = .next t ∧ exec (.rxByteEof b) s = .next t)

/-- R27 to R31, R100: while a window is open, after the raw bytes `r`, whatever idle cycles and commands but RESET lie
between: the frame bytes taken are `strip_idle_padding` of the first MAX_RAW of them, RLEN counts them, HOLD holds the
last `min(RLEN, 2)`, RACC is the CRC of the rest, and the rest is what has been emitted; RRAW counts the raw bytes up to
MAX_RAW; ROVF says whether one was dropped. -/
def Obligations.OpenWindowHoldsTheFrameBytes : Prop :=
  ∀ (ins rest : List Input) (s : State) (r : List Byte), s.inputs = ins ++ rest → s.config.wf = true →
    FreshWindow s → (∀ i ∈ ins, resets i = false ∧ endsFrame i = false) → ins.filterMap lineByteOf = r →
    ∃ t : State, runSteps ins.length s = .next t ∧ t.inputs = rest ∧
      FrameBytes t (stripIdle (r.take s.config.maxRaw.toNat)) ∧
      (t.rxs = .frame ↔ stripIdle (r.take s.config.maxRaw.toNat) ≠ []) ∧
      t.rraw.toNat = min r.length s.config.maxRaw.toNat ∧
      t.rovf = decide (s.config.maxRaw.toNat < r.length) ∧
      rxPort t.out = rxPort s.out ++ (frameBody (stripIdle (r.take s.config.maxRaw.toNat))).map .byte

/-- R106: one receive window, opened fresh and closed by the end of frame of its last cycle, reports what the source's
functions give for its raw bytes `r`, whatever commands but RESET the host presents meanwhile and however many idle
cycles lie between; the last-window registers agree, and a fresh window is open again. -/
def Obligations.WindowReportsTheSourceFunctions : Prop :=
  ∀ (body : List Input) (last : Input) (rest : List Input) (s : State) (r : List Byte),
    s.inputs = body ++ last :: rest → s.config.wf = true → FreshWindow s →
    (∀ i ∈ body, resets i = false ∧ endsFrame i = false) → resets last = false → endsFrame last = true →
    (body ++ [last]).filterMap lineByteOf = r →
    ∃ t : State, runSteps (body.length + 1) s = .next t ∧ t.inputs = rest ∧
      rxPort t.out = rxPort s.out ++ windowEvents s.config.maxRaw.toNat r ∧
      t.lverd = some (windowVerdict s.config.maxRaw.toNat r) ∧
      t.lovf = decide (s.config.maxRaw.toNat < r.length) ∧
      t.llen.toNat = (stripIdle (r.take s.config.maxRaw.toNat)).length ∧
      t.lrecv = (if 3 ≤ (stripIdle (r.take s.config.maxRaw.toNat)).length
        then lastTwo (stripIdle (r.take s.config.maxRaw.toNat)) else 0) ∧
      t.lcalc = (if 3 ≤ (stripIdle (r.take s.config.maxRaw.toNat)).length
        then crc16 (frameBody (stripIdle (r.take s.config.maxRaw.toNat))) else 0) ∧
      t.fcnt = s.fcnt + 1 ∧ FreshWindow t

/-- R95, its first sentence, with C1: the generated frame of a payload that does not start with `0xFF` and fits in
MAX_RAW, presented as one receive window, comes out OK with exactly the payload; and `validate(encode(d))` holds exactly
for nonempty `d`. -/
def Obligations.GeneratedFrameIsReceivedIntact : Prop :=
  (∀ (d : List Byte) (rest : List Input) (s : State),
    s.inputs = rxFrame (encodeFrame d) ++ rest → s.config.wf = true → FreshWindow s → 1 ≤ d.length →
    d.head? ≠ some 0xFF → d.length + 2 ≤ s.config.maxRaw.toNat →
    ∃ t : State, runSteps (d.length + 3) s = .next t ∧ t.inputs = rest ∧ t.lverd = some .ok ∧
      rxPort t.out =
        rxPort s.out ++ d.map .byte ++ [.finish .ok false (BitVec.ofNat 16 (d.length + 2))]) ∧
  (∀ d : List Byte, validate (encodeFrame d) = true ↔ d ≠ [])

/-- R95, its second half: a single flipped bit in `encode(d)` makes `validate` false, and through the framer, for
`d[0] != 0xFF` and `len(d) + 2 <= MAX_RAW`, the window's verdict is not OK. -/
def Obligations.SingleBitErrorIsDetected : Prop :=
  (∀ (d : List Byte) (j k : Nat), 1 ≤ d.length → j < d.length + 2 → k < 8 →
    validate ((encodeFrame d).modify j fun b => b ^^^ (1#8 <<< k)) = false) ∧
  (∀ (d : List Byte) (j k : Nat) (rest : List Input) (s : State), 1 ≤ d.length → d.head? ≠ some 0xFF →
    d.length + 2 ≤ s.config.maxRaw.toNat → j < d.length + 2 → k < 8 → s.config.wf = true → FreshWindow s →
    s.inputs = rxFrame ((encodeFrame d).modify j fun b => b ^^^ (1#8 <<< k)) ++ rest →
    ∃ t : State, runSteps (d.length + 3) s = .next t ∧ t.inputs = rest ∧
      ∃ v, t.lverd = some v ∧ v ≠ .ok)

/-- L1.2 with C3: `k` bytes of idle padding before a nonempty window change neither its RX frame events nor its
last-window registers, as long as padding and window fit in MAX_RAW raw bytes. -/
def Obligations.IdlePaddingDoesNotChangeTheReport : Prop :=
  ∀ (k : Nat) (r : List Byte) (rest : List Input) (s : State), s.config.wf = true → FreshWindow s → r ≠ [] →
    k + r.length ≤ s.config.maxRaw.toNat →
    ∃ t u : State,
      runSteps (r.length + 1) { s with inputs := rxFrame r ++ rest } = .next t ∧
      runSteps (k + r.length + 1) { s with inputs := rxFrame (List.replicate k 0xFF ++ r) ++ rest } = .next u ∧
      rxPort u.out = rxPort t.out ∧ u.lverd = t.lverd ∧ u.lovf = t.lovf ∧ u.llen = t.llen ∧ u.lrecv = t.lrecv ∧
      u.lcalc = t.lcalc

/-- R37, R96: FCNT is 0 at reset; over a run without a reset, each end of frame closes exactly one window: one FRAME_END event, and FCNT up
by one, modulo 2^16. -/
def Obligations.EachEndOfFrameClosesOneWindow : Prop :=
  State.reset.fcnt = 0 ∧
  ∀ (ins rest : List Input) (s : State), s.inputs = ins ++ rest → (∀ i ∈ ins, resets i = false) →
    ∃ t : State, runSteps ins.length s = .next t ∧ t.inputs = rest ∧
      (rxPort t.out).countP isFinish = (rxPort s.out).countP isFinish + ins.countP endsFrame ∧
      t.fcnt = s.fcnt + BitVec.ofNat 16 (ins.countP endsFrame)

/-! ### Invariants -/

/-- R43: every step keeps (a) to (h). -/
def Obligations.StepKeepsTheInvariants : Prop :=
  ∀ s t : State, Inv s → step s = .next t → Inv t

/-- R43 (a) to (h) hold at reset. -/
def Obligations.ResetMeetsTheInvariants : Prop := Inv State.reset

/-! ### The assembler -/

/-- R78, R79, and R76's words (what they emit is `GeneratedFrameIsEncodeOfThePayload`); R75's example. -/
def Obligations.PseudoInstructionsExpand : Prop :=
  (∀ d : List Byte,
    txFrame d = .cycle 0x000 (some 0x1000) :: (d.map fun b => .cycle 0x000 (some (0x11#8 ++ b))) ++
      [.cycle 0x000 (some 0x1200)] ∧
    rxBytes d = (d.map fun b => .cycle (0b01#2 ++ b) none) ∧
    rxFrame d = (d.map fun b => .cycle (0b01#2 ++ b) none) ++ [.cycle 0x200 none]) ∧
  rdStat = .cycle 0x000 (some 0x2000) ∧
  assembleLine "L: RX_BYTE 0xFD  H: REG_READ STATUS" = some [.cycle 0x1FD (some 0x2000)]

/-- R77: the words of `CRCBLOCK d`; after it, `k + 1` cycles, CACC is `crc16(d)`, and nothing else has changed. -/
def Obligations.CrcBlockComputesTheCrc : Prop :=
  ∀ (d : List Byte) (rest : List Input) (s : State), s.inputs = crcBlock d ++ rest →
    crcBlock d = .cycle 0x000 (some 0x0100) :: (d.map fun b => .cycle 0x000 (some (0x02#8 ++ b))) ∧
    (crcBlock d).length = d.length + 1 ∧
    runSteps (crcBlock d).length s = .next { s with cacc := crc16 d, inputs := rest }
end

