-- ==== Sys2Proof/Laws/Crc.lean ====
section
/-! SUPPORT. The CRC's iteration and its fold over a byte list (40_crc.md R81, R82). -/

namespace Sys2Proof.Machine

@[simp] theorem crcShifts_zero (a : Word) : crcShifts 0 a = a := rfl

theorem crcShifts_succ (n : Nat) (a : Word) : crcShifts (n + 1) a = crcShifts n (crcShift a) := rfl

/-- One iteration distributes over exclusive-or: it is an XOR of shifted inputs with a constant chosen by a bit that is
itself linear in the inputs. -/
theorem crcShift_xor (a b : Word) : crcShift (a ^^^ b) = crcShift a ^^^ crcShift b := by
  unfold crcShift
  have h : (a ^^^ b) >>> 1 = (a >>> 1) ^^^ (b >>> 1) := BitVec.ushiftRight_xor_distrib a b 1
  rcases ha : a.getLsbD 0 <;> rcases hb : b.getLsbD 0 <;>
    simp only [BitVec.getLsbD_xor, ha, hb, h] <;> ext i hi <;> simp <;> grind

@[simp] theorem crcFold_nil (a : Word) : crcFold a [] = a := rfl

@[simp] theorem crcFold_cons (a : Word) (b : Byte) (d : List Byte) : crcFold a (b :: d) = crcFold (crcStep a b) d := rfl

theorem crcFold_append (a : Word) (d e : List Byte) : crcFold a (d ++ e) = crcFold (crcFold a d) e := by
  simp [crcFold]

@[simp] theorem crc16_nil : crc16 [] = 0xFFFF := rfl

/-- Feeding one more byte. -/
theorem crc16_snoc (d : List Byte) (b : Byte) : crc16 (d ++ [b]) = crcStep (crc16 d) b := by
  simp [crc16, crcFold]

end Sys2Proof.Machine
end

