-- ==== Sys2Proof/Laws/Decode.lean ====
section
/-! SUPPORT. The fields of words put together by appending (30_encoding.md R62, R66), and the decoder on them. -/

namespace Sys2Proof

@[simp] theorem opField_append (op opd : Byte) : opField (op ++ opd) = op := by
  unfold opField
  ext i hi
  simp
  grind

@[simp] theorem opdField_append (op opd : Byte) : opdField (op ++ opd) = opd := by
  unfold opdField
  ext i hi
  simp
  grind

/-- A host word is its two fields. -/
theorem hostWord_eq_fields (w : HostWord) : w = opField w ++ opdField w := by
  unfold opField opdField
  ext i hi
  simp
  grind

/-- `decode_H` by opcode, on a word given by its fields. -/
theorem decodeHost_append (op opd : Byte) :
    decodeHost (op ++ opd) =
      match op.toNat with
      | 0x00 => mustBeZero opd .nop
      | 0x01 => mustBeZero opd .crcInit
      | 0x02 => .ok (.crcByte opd)
      | 0x10 => mustBeZero opd .txStart
      | 0x11 => .ok (.txByte opd)
      | 0x12 => mustBeZero opd .txEnd
      | 0x20 => .ok (.regRead opd)
      | 0x30 => mustBeZero opd .reset
      | _ => .error .undefOp := by
  unfold decodeHost
  rw [opField_append, opdField_append]
  all_goals rfl

theorem mustBeZero_zero (i : Instr) : mustBeZero 0 i = .ok i := rfl

theorem mustBeZero_nonzero (opd : Byte) (i : Instr) (h : opd ≠ 0) : mustBeZero opd i = .error .badOperand :=
  if_neg h

/-- A line word by its two flags and its data. -/
theorem decodeLine_lineWord (eof valid : Bool) (data : Byte) :
    decodeLine (lineWord eof valid data) =
      match eof, valid with
      | false, false => .lineIdle
      | false, true => .rxByte data
      | true, false => .rxEof
      | true, true => .rxByteEof data := by
  revert eof valid data; decide

/-- Every word of the host port decodes to a host command or to a command error, never to a line event. -/
theorem decodeHost_isHost (w : HostWord) (i : Instr) (h : decodeHost w = .ok i) : i.isHost = true := by
  unfold decodeHost mustBeZero at h
  split at h <;> (try split at h) <;> first | (injection h with h; subst h; rfl) | (injection h)

theorem decodeLine_isLine (l : LineWord) : (decodeLine l).isLine = true := by
  unfold decodeLine
  split <;> rfl

end Sys2Proof
end

