-- ==== Sys2Proof/Laws/State.lean ====
section
/-! SUPPORT. One lemma per field per shared update, so that no proof unfolds a record update. -/

namespace Sys2Proof.Machine

/-! ### emit and the output primitives -/

@[simp] theorem txEmit_eq (b : Byte) (s : State) : txEmit b s = emit (.tx b) s := rfl

@[simp] theorem rxEmitByte_eq (b : Byte) (s : State) : rxEmitByte b s = emit (.rx (.byte b)) s := rfl

@[simp] theorem respond_eq (w : Word) (s : State) : respond w s = emit (.response w) s := rfl

@[simp] theorem rxEmitEnd_eq (v : Verdict) (o : Bool) (n : Word) (s : State) :
    rxEmitEnd v o n s = emit (.rx (.finish v o n)) s := rfl

@[simp] theorem emit_config (e : PortEvent) (s : State) : (emit e s).config = s.config := rfl

@[simp] theorem emit_cacc (e : PortEvent) (s : State) : (emit e s).cacc = s.cacc := rfl

@[simp] theorem emit_txs (e : PortEvent) (s : State) : (emit e s).txs = s.txs := rfl

@[simp] theorem emit_tacc (e : PortEvent) (s : State) : (emit e s).tacc = s.tacc := rfl

@[simp] theorem emit_rxs (e : PortEvent) (s : State) : (emit e s).rxs = s.rxs := rfl

@[simp] theorem emit_racc (e : PortEvent) (s : State) : (emit e s).racc = s.racc := rfl

@[simp] theorem emit_hold (e : PortEvent) (s : State) : (emit e s).hold = s.hold := rfl

@[simp] theorem emit_rlen (e : PortEvent) (s : State) : (emit e s).rlen = s.rlen := rfl

@[simp] theorem emit_rraw (e : PortEvent) (s : State) : (emit e s).rraw = s.rraw := rfl

@[simp] theorem emit_rovf (e : PortEvent) (s : State) : (emit e s).rovf = s.rovf := rfl

@[simp] theorem emit_lverd (e : PortEvent) (s : State) : (emit e s).lverd = s.lverd := rfl

@[simp] theorem emit_lovf (e : PortEvent) (s : State) : (emit e s).lovf = s.lovf := rfl

@[simp] theorem emit_llen (e : PortEvent) (s : State) : (emit e s).llen = s.llen := rfl

@[simp] theorem emit_lrecv (e : PortEvent) (s : State) : (emit e s).lrecv = s.lrecv := rfl

@[simp] theorem emit_lcalc (e : PortEvent) (s : State) : (emit e s).lcalc = s.lcalc := rfl

@[simp] theorem emit_fcnt (e : PortEvent) (s : State) : (emit e s).fcnt = s.fcnt := rfl

@[simp] theorem emit_cerr (e : PortEvent) (s : State) : (emit e s).cerr = s.cerr := rfl

@[simp] theorem emit_ecode (e : PortEvent) (s : State) : (emit e s).ecode = s.ecode := rfl

@[simp] theorem emit_inputs (e : PortEvent) (s : State) : (emit e s).inputs = s.inputs := rfl

@[simp] theorem emit_out (e : PortEvent) (s : State) : (emit e s).out = s.out ++ [e] := rfl

/-! ### raiseCmdError -/

@[simp] theorem raiseCmdError_config (e : CmdError) (s : State) : (raiseCmdError e s).config = s.config := by
  unfold raiseCmdError; split <;> rfl

@[simp] theorem raiseCmdError_cacc (e : CmdError) (s : State) : (raiseCmdError e s).cacc = s.cacc := by
  unfold raiseCmdError; split <;> rfl

@[simp] theorem raiseCmdError_txs (e : CmdError) (s : State) : (raiseCmdError e s).txs = s.txs := by
  unfold raiseCmdError; split <;> rfl

@[simp] theorem raiseCmdError_tacc (e : CmdError) (s : State) : (raiseCmdError e s).tacc = s.tacc := by
  unfold raiseCmdError; split <;> rfl

@[simp] theorem raiseCmdError_rxs (e : CmdError) (s : State) : (raiseCmdError e s).rxs = s.rxs := by
  unfold raiseCmdError; split <;> rfl

@[simp] theorem raiseCmdError_racc (e : CmdError) (s : State) : (raiseCmdError e s).racc = s.racc := by
  unfold raiseCmdError; split <;> rfl

@[simp] theorem raiseCmdError_hold (e : CmdError) (s : State) : (raiseCmdError e s).hold = s.hold := by
  unfold raiseCmdError; split <;> rfl

@[simp] theorem raiseCmdError_rlen (e : CmdError) (s : State) : (raiseCmdError e s).rlen = s.rlen := by
  unfold raiseCmdError; split <;> rfl

@[simp] theorem raiseCmdError_rraw (e : CmdError) (s : State) : (raiseCmdError e s).rraw = s.rraw := by
  unfold raiseCmdError; split <;> rfl

@[simp] theorem raiseCmdError_rovf (e : CmdError) (s : State) : (raiseCmdError e s).rovf = s.rovf := by
  unfold raiseCmdError; split <;> rfl

@[simp] theorem raiseCmdError_lverd (e : CmdError) (s : State) : (raiseCmdError e s).lverd = s.lverd := by
  unfold raiseCmdError; split <;> rfl

@[simp] theorem raiseCmdError_lovf (e : CmdError) (s : State) : (raiseCmdError e s).lovf = s.lovf := by
  unfold raiseCmdError; split <;> rfl

@[simp] theorem raiseCmdError_llen (e : CmdError) (s : State) : (raiseCmdError e s).llen = s.llen := by
  unfold raiseCmdError; split <;> rfl

@[simp] theorem raiseCmdError_lrecv (e : CmdError) (s : State) : (raiseCmdError e s).lrecv = s.lrecv := by
  unfold raiseCmdError; split <;> rfl

@[simp] theorem raiseCmdError_lcalc (e : CmdError) (s : State) : (raiseCmdError e s).lcalc = s.lcalc := by
  unfold raiseCmdError; split <;> rfl

@[simp] theorem raiseCmdError_fcnt (e : CmdError) (s : State) : (raiseCmdError e s).fcnt = s.fcnt := by
  unfold raiseCmdError; split <;> rfl

@[simp] theorem raiseCmdError_inputs (e : CmdError) (s : State) : (raiseCmdError e s).inputs = s.inputs := by
  unfold raiseCmdError; split <;> rfl

@[simp] theorem raiseCmdError_out (e : CmdError) (s : State) : (raiseCmdError e s).out = s.out := by
  unfold raiseCmdError; split <;> rfl

@[simp] theorem raiseCmdError_cerr (e : CmdError) (s : State) : (raiseCmdError e s).cerr = true := by
  unfold raiseCmdError; split <;> simp_all

@[simp] theorem raiseCmdError_ecode (e : CmdError) (s : State) : (raiseCmdError e s).ecode = (if s.cerr then s.ecode else some e) := by
  unfold raiseCmdError; split <;> simp_all

/-! ### applyReset -/

@[simp] theorem applyReset_config (s : State) : (applyReset s).config = s.config := rfl

@[simp] theorem applyReset_cacc (s : State) : (applyReset s).cacc = 0xFFFF := rfl

@[simp] theorem applyReset_txs (s : State) : (applyReset s).txs = .idle := rfl

@[simp] theorem applyReset_tacc (s : State) : (applyReset s).tacc = 0xFFFF := rfl

@[simp] theorem applyReset_rxs (s : State) : (applyReset s).rxs = .hunt := rfl

@[simp] theorem applyReset_racc (s : State) : (applyReset s).racc = 0xFFFF := rfl

@[simp] theorem applyReset_hold (s : State) : (applyReset s).hold = .empty := rfl

@[simp] theorem applyReset_rlen (s : State) : (applyReset s).rlen = 0 := rfl

@[simp] theorem applyReset_rraw (s : State) : (applyReset s).rraw = 0 := rfl

@[simp] theorem applyReset_rovf (s : State) : (applyReset s).rovf = false := rfl

@[simp] theorem applyReset_lverd (s : State) : (applyReset s).lverd = none := rfl

@[simp] theorem applyReset_lovf (s : State) : (applyReset s).lovf = false := rfl

@[simp] theorem applyReset_llen (s : State) : (applyReset s).llen = 0 := rfl

@[simp] theorem applyReset_lrecv (s : State) : (applyReset s).lrecv = 0 := rfl

@[simp] theorem applyReset_lcalc (s : State) : (applyReset s).lcalc = 0 := rfl

@[simp] theorem applyReset_fcnt (s : State) : (applyReset s).fcnt = 0 := rfl

@[simp] theorem applyReset_cerr (s : State) : (applyReset s).cerr = false := rfl

@[simp] theorem applyReset_ecode (s : State) : (applyReset s).ecode = none := rfl

@[simp] theorem applyReset_inputs (s : State) : (applyReset s).inputs = s.inputs := rfl

@[simp] theorem applyReset_out (s : State) : (applyReset s).out = s.out := rfl

/-! ### closeWindow -/

@[simp] theorem closeWindow_config (s : State) : (closeWindow s).config = s.config := rfl

@[simp] theorem closeWindow_cacc (s : State) : (closeWindow s).cacc = s.cacc := rfl

@[simp] theorem closeWindow_txs (s : State) : (closeWindow s).txs = s.txs := rfl

@[simp] theorem closeWindow_tacc (s : State) : (closeWindow s).tacc = s.tacc := rfl

@[simp] theorem closeWindow_rxs (s : State) : (closeWindow s).rxs = .hunt := rfl

@[simp] theorem closeWindow_racc (s : State) : (closeWindow s).racc = 0xFFFF := rfl

@[simp] theorem closeWindow_hold (s : State) : (closeWindow s).hold = .empty := rfl

@[simp] theorem closeWindow_rlen (s : State) : (closeWindow s).rlen = 0 := rfl

@[simp] theorem closeWindow_rraw (s : State) : (closeWindow s).rraw = 0 := rfl

@[simp] theorem closeWindow_rovf (s : State) : (closeWindow s).rovf = false := rfl

@[simp] theorem closeWindow_lverd (s : State) : (closeWindow s).lverd = s.lverd := rfl

@[simp] theorem closeWindow_lovf (s : State) : (closeWindow s).lovf = s.lovf := rfl

@[simp] theorem closeWindow_llen (s : State) : (closeWindow s).llen = s.llen := rfl

@[simp] theorem closeWindow_lrecv (s : State) : (closeWindow s).lrecv = s.lrecv := rfl

@[simp] theorem closeWindow_lcalc (s : State) : (closeWindow s).lcalc = s.lcalc := rfl

@[simp] theorem closeWindow_fcnt (s : State) : (closeWindow s).fcnt = s.fcnt := rfl

@[simp] theorem closeWindow_cerr (s : State) : (closeWindow s).cerr = s.cerr := rfl

@[simp] theorem closeWindow_ecode (s : State) : (closeWindow s).ecode = s.ecode := rfl

@[simp] theorem closeWindow_inputs (s : State) : (closeWindow s).inputs = s.inputs := rfl

@[simp] theorem closeWindow_out (s : State) : (closeWindow s).out = s.out := rfl

/-! ### reportWindow -/

@[simp] theorem reportWindow_config (v : Verdict) (s : State) : (reportWindow v s).config = s.config := rfl

@[simp] theorem reportWindow_cacc (v : Verdict) (s : State) : (reportWindow v s).cacc = s.cacc := rfl

@[simp] theorem reportWindow_txs (v : Verdict) (s : State) : (reportWindow v s).txs = s.txs := rfl

@[simp] theorem reportWindow_tacc (v : Verdict) (s : State) : (reportWindow v s).tacc = s.tacc := rfl

@[simp] theorem reportWindow_rxs (v : Verdict) (s : State) : (reportWindow v s).rxs = s.rxs := rfl

@[simp] theorem reportWindow_racc (v : Verdict) (s : State) : (reportWindow v s).racc = s.racc := rfl

@[simp] theorem reportWindow_hold (v : Verdict) (s : State) : (reportWindow v s).hold = s.hold := rfl

@[simp] theorem reportWindow_rlen (v : Verdict) (s : State) : (reportWindow v s).rlen = s.rlen := rfl

@[simp] theorem reportWindow_rraw (v : Verdict) (s : State) : (reportWindow v s).rraw = s.rraw := rfl

@[simp] theorem reportWindow_rovf (v : Verdict) (s : State) : (reportWindow v s).rovf = s.rovf := rfl

@[simp] theorem reportWindow_lverd (v : Verdict) (s : State) : (reportWindow v s).lverd = some v := rfl

@[simp] theorem reportWindow_lovf (v : Verdict) (s : State) : (reportWindow v s).lovf = s.rovf := rfl

@[simp] theorem reportWindow_llen (v : Verdict) (s : State) : (reportWindow v s).llen = s.rlen := rfl

@[simp] theorem reportWindow_lrecv (v : Verdict) (s : State) : (reportWindow v s).lrecv = (if v.reportsCheck then checkField s.hold else 0) := rfl

@[simp] theorem reportWindow_lcalc (v : Verdict) (s : State) : (reportWindow v s).lcalc = (if v.reportsCheck then s.racc else 0) := rfl

@[simp] theorem reportWindow_fcnt (v : Verdict) (s : State) : (reportWindow v s).fcnt = s.fcnt + 1 := rfl

@[simp] theorem reportWindow_cerr (v : Verdict) (s : State) : (reportWindow v s).cerr = s.cerr := rfl

@[simp] theorem reportWindow_ecode (v : Verdict) (s : State) : (reportWindow v s).ecode = s.ecode := rfl

@[simp] theorem reportWindow_inputs (v : Verdict) (s : State) : (reportWindow v s).inputs = s.inputs := rfl

@[simp] theorem reportWindow_out (v : Verdict) (s : State) : (reportWindow v s).out = s.out ++ [.rx (.finish v s.rovf s.rlen)] := rfl

/-! ### holdPush: what it leaves alone -/

@[simp] theorem holdPush_config (b : Byte) (s : State) : (holdPush b s).config = s.config := by
  unfold holdPush; split <;> rfl

@[simp] theorem holdPush_cacc (b : Byte) (s : State) : (holdPush b s).cacc = s.cacc := by
  unfold holdPush; split <;> rfl

@[simp] theorem holdPush_txs (b : Byte) (s : State) : (holdPush b s).txs = s.txs := by
  unfold holdPush; split <;> rfl

@[simp] theorem holdPush_tacc (b : Byte) (s : State) : (holdPush b s).tacc = s.tacc := by
  unfold holdPush; split <;> rfl

@[simp] theorem holdPush_rxs (b : Byte) (s : State) : (holdPush b s).rxs = s.rxs := by
  unfold holdPush; split <;> rfl

@[simp] theorem holdPush_rlen (b : Byte) (s : State) : (holdPush b s).rlen = s.rlen := by
  unfold holdPush; split <;> rfl

@[simp] theorem holdPush_rraw (b : Byte) (s : State) : (holdPush b s).rraw = s.rraw := by
  unfold holdPush; split <;> rfl

@[simp] theorem holdPush_rovf (b : Byte) (s : State) : (holdPush b s).rovf = s.rovf := by
  unfold holdPush; split <;> rfl

@[simp] theorem holdPush_lverd (b : Byte) (s : State) : (holdPush b s).lverd = s.lverd := by
  unfold holdPush; split <;> rfl

@[simp] theorem holdPush_lovf (b : Byte) (s : State) : (holdPush b s).lovf = s.lovf := by
  unfold holdPush; split <;> rfl

@[simp] theorem holdPush_llen (b : Byte) (s : State) : (holdPush b s).llen = s.llen := by
  unfold holdPush; split <;> rfl

@[simp] theorem holdPush_lrecv (b : Byte) (s : State) : (holdPush b s).lrecv = s.lrecv := by
  unfold holdPush; split <;> rfl

@[simp] theorem holdPush_lcalc (b : Byte) (s : State) : (holdPush b s).lcalc = s.lcalc := by
  unfold holdPush; split <;> rfl

@[simp] theorem holdPush_fcnt (b : Byte) (s : State) : (holdPush b s).fcnt = s.fcnt := by
  unfold holdPush; split <;> rfl

@[simp] theorem holdPush_cerr (b : Byte) (s : State) : (holdPush b s).cerr = s.cerr := by
  unfold holdPush; split <;> rfl

@[simp] theorem holdPush_ecode (b : Byte) (s : State) : (holdPush b s).ecode = s.ecode := by
  unfold holdPush; split <;> rfl

@[simp] theorem holdPush_inputs (b : Byte) (s : State) : (holdPush b s).inputs = s.inputs := by
  unfold holdPush; split <;> rfl

/-! ### takeByte: what it leaves alone -/

@[simp] theorem takeByte_config (b : Byte) (s : State) : (takeByte b s).config = s.config := by
  unfold takeByte huntByte frameByte; split
  · rfl
  · split <;> [split <;> rfl; simp]

@[simp] theorem takeByte_cacc (b : Byte) (s : State) : (takeByte b s).cacc = s.cacc := by
  unfold takeByte huntByte frameByte; split
  · rfl
  · split <;> [split <;> rfl; simp]

@[simp] theorem takeByte_txs (b : Byte) (s : State) : (takeByte b s).txs = s.txs := by
  unfold takeByte huntByte frameByte; split
  · rfl
  · split <;> [split <;> rfl; simp]

@[simp] theorem takeByte_tacc (b : Byte) (s : State) : (takeByte b s).tacc = s.tacc := by
  unfold takeByte huntByte frameByte; split
  · rfl
  · split <;> [split <;> rfl; simp]

@[simp] theorem takeByte_lverd (b : Byte) (s : State) : (takeByte b s).lverd = s.lverd := by
  unfold takeByte huntByte frameByte; split
  · rfl
  · split <;> [split <;> rfl; simp]

@[simp] theorem takeByte_lovf (b : Byte) (s : State) : (takeByte b s).lovf = s.lovf := by
  unfold takeByte huntByte frameByte; split
  · rfl
  · split <;> [split <;> rfl; simp]

@[simp] theorem takeByte_llen (b : Byte) (s : State) : (takeByte b s).llen = s.llen := by
  unfold takeByte huntByte frameByte; split
  · rfl
  · split <;> [split <;> rfl; simp]

@[simp] theorem takeByte_lrecv (b : Byte) (s : State) : (takeByte b s).lrecv = s.lrecv := by
  unfold takeByte huntByte frameByte; split
  · rfl
  · split <;> [split <;> rfl; simp]

@[simp] theorem takeByte_lcalc (b : Byte) (s : State) : (takeByte b s).lcalc = s.lcalc := by
  unfold takeByte huntByte frameByte; split
  · rfl
  · split <;> [split <;> rfl; simp]

@[simp] theorem takeByte_fcnt (b : Byte) (s : State) : (takeByte b s).fcnt = s.fcnt := by
  unfold takeByte huntByte frameByte; split
  · rfl
  · split <;> [split <;> rfl; simp]

@[simp] theorem takeByte_cerr (b : Byte) (s : State) : (takeByte b s).cerr = s.cerr := by
  unfold takeByte huntByte frameByte; split
  · rfl
  · split <;> [split <;> rfl; simp]

@[simp] theorem takeByte_ecode (b : Byte) (s : State) : (takeByte b s).ecode = s.ecode := by
  unfold takeByte huntByte frameByte; split
  · rfl
  · split <;> [split <;> rfl; simp]

@[simp] theorem takeByte_inputs (b : Byte) (s : State) : (takeByte b s).inputs = s.inputs := by
  unfold takeByte huntByte frameByte; split
  · rfl
  · split <;> [split <;> rfl; simp]

/-! ### endOfFrame -/

@[simp] theorem endOfFrame_config (s : State) : (endOfFrame s).config = s.config := rfl

@[simp] theorem endOfFrame_cacc (s : State) : (endOfFrame s).cacc = s.cacc := rfl

@[simp] theorem endOfFrame_txs (s : State) : (endOfFrame s).txs = s.txs := rfl

@[simp] theorem endOfFrame_tacc (s : State) : (endOfFrame s).tacc = s.tacc := rfl

@[simp] theorem endOfFrame_rxs (s : State) : (endOfFrame s).rxs = .hunt := rfl

@[simp] theorem endOfFrame_racc (s : State) : (endOfFrame s).racc = 0xFFFF := rfl

@[simp] theorem endOfFrame_hold (s : State) : (endOfFrame s).hold = .empty := rfl

@[simp] theorem endOfFrame_rlen (s : State) : (endOfFrame s).rlen = 0 := rfl

@[simp] theorem endOfFrame_rraw (s : State) : (endOfFrame s).rraw = 0 := rfl

@[simp] theorem endOfFrame_rovf (s : State) : (endOfFrame s).rovf = false := rfl

@[simp] theorem endOfFrame_lverd (s : State) : (endOfFrame s).lverd = some (classify s) := rfl

@[simp] theorem endOfFrame_lovf (s : State) : (endOfFrame s).lovf = s.rovf := rfl

@[simp] theorem endOfFrame_llen (s : State) : (endOfFrame s).llen = s.rlen := rfl

@[simp] theorem endOfFrame_lrecv (s : State) : (endOfFrame s).lrecv = (if (classify s).reportsCheck then checkField s.hold else 0) := rfl

@[simp] theorem endOfFrame_lcalc (s : State) : (endOfFrame s).lcalc = (if (classify s).reportsCheck then s.racc else 0) := rfl

@[simp] theorem endOfFrame_fcnt (s : State) : (endOfFrame s).fcnt = s.fcnt + 1 := rfl

@[simp] theorem endOfFrame_cerr (s : State) : (endOfFrame s).cerr = s.cerr := rfl

@[simp] theorem endOfFrame_ecode (s : State) : (endOfFrame s).ecode = s.ecode := rfl

@[simp] theorem endOfFrame_inputs (s : State) : (endOfFrame s).inputs = s.inputs := rfl

@[simp] theorem endOfFrame_out (s : State) : (endOfFrame s).out = s.out ++ [.rx (.finish (classify s) s.rovf s.rlen)] := rfl

/-! ### takeInput -/

@[simp] theorem takeInput_config (s : State) : (takeInput s).config = s.config := by
  unfold takeInput; split <;> simp_all

@[simp] theorem takeInput_cacc (s : State) : (takeInput s).cacc = s.cacc := by
  unfold takeInput; split <;> simp_all

@[simp] theorem takeInput_txs (s : State) : (takeInput s).txs = s.txs := by
  unfold takeInput; split <;> simp_all

@[simp] theorem takeInput_tacc (s : State) : (takeInput s).tacc = s.tacc := by
  unfold takeInput; split <;> simp_all

@[simp] theorem takeInput_rxs (s : State) : (takeInput s).rxs = s.rxs := by
  unfold takeInput; split <;> simp_all

@[simp] theorem takeInput_racc (s : State) : (takeInput s).racc = s.racc := by
  unfold takeInput; split <;> simp_all

@[simp] theorem takeInput_hold (s : State) : (takeInput s).hold = s.hold := by
  unfold takeInput; split <;> simp_all

@[simp] theorem takeInput_rlen (s : State) : (takeInput s).rlen = s.rlen := by
  unfold takeInput; split <;> simp_all

@[simp] theorem takeInput_rraw (s : State) : (takeInput s).rraw = s.rraw := by
  unfold takeInput; split <;> simp_all

@[simp] theorem takeInput_rovf (s : State) : (takeInput s).rovf = s.rovf := by
  unfold takeInput; split <;> simp_all

@[simp] theorem takeInput_lverd (s : State) : (takeInput s).lverd = s.lverd := by
  unfold takeInput; split <;> simp_all

@[simp] theorem takeInput_lovf (s : State) : (takeInput s).lovf = s.lovf := by
  unfold takeInput; split <;> simp_all

@[simp] theorem takeInput_llen (s : State) : (takeInput s).llen = s.llen := by
  unfold takeInput; split <;> simp_all

@[simp] theorem takeInput_lrecv (s : State) : (takeInput s).lrecv = s.lrecv := by
  unfold takeInput; split <;> simp_all

@[simp] theorem takeInput_lcalc (s : State) : (takeInput s).lcalc = s.lcalc := by
  unfold takeInput; split <;> simp_all

@[simp] theorem takeInput_fcnt (s : State) : (takeInput s).fcnt = s.fcnt := by
  unfold takeInput; split <;> simp_all

@[simp] theorem takeInput_cerr (s : State) : (takeInput s).cerr = s.cerr := by
  unfold takeInput; split <;> simp_all

@[simp] theorem takeInput_ecode (s : State) : (takeInput s).ecode = s.ecode := by
  unfold takeInput; split <;> simp_all

@[simp] theorem takeInput_inputs (s : State) : (takeInput s).inputs = s.inputs.tail := by
  unfold takeInput; split <;> simp_all

@[simp] theorem takeInput_out (s : State) : (takeInput s).out = s.out := by
  unfold takeInput; split <;> simp_all

end Sys2Proof.Machine
end

