-- ==== Sys2Proof/Laws/Ops.lean ====
section
/-! SUPPORT. One lemma per shared operation that says everything it does; a proof cites it and does not unfold it. -/

namespace Sys2Proof.Machine

/-- The command error action changes CERR and ECODE and nothing else. -/
theorem raiseCmdError_eq (e : CmdError) (s : State) : raiseCmdError e s = withFirstError e s := by
  unfold raiseCmdError withFirstError
  split
  · cases s; simp_all
  · simp

/-- `apply_reset` is the reset state but for the parameter and the environment. -/
theorem applyReset_eq (s : State) :
    applyReset s = { State.reset with config := s.config, inputs := s.inputs, out := s.out } := rfl

/-- A push appends the byte and keeps the last two; the byte that falls out is emitted and fed to RACC. -/
theorem holdPush_cases (b : Byte) (s : State) :
    (∃ a c, s.hold = .two a c ∧
      holdPush b s = { s with racc := crcStep s.racc a, hold := .two c b, out := s.out ++ [.rx (.byte a)] }) ∨
    ((s.hold = .empty ∧ holdPush b s = { s with hold := .one b }) ∨
      ∃ a, s.hold = .one a ∧ holdPush b s = { s with hold := .two a b }) := by
  unfold holdPush
  split
  · next h => exact .inr (.inl ⟨h, rfl⟩)
  · next a h => exact .inr (.inr ⟨a, h, rfl⟩)
  · next a c h => exact .inl ⟨a, c, h, rfl⟩

/-- Everything `RX_BYTE b` can do: drop, strip, start the frame, or push a frame byte. -/
theorem takeByte_cases (b : Byte) (s : State) :
    (s.rraw = s.config.maxRaw ∧ takeByte b s = { s with rovf := true }) ∨
    (s.rraw ≠ s.config.maxRaw ∧ s.rxs = .hunt ∧ b = 0xFF ∧ takeByte b s = { s with rraw := s.rraw + 1 }) ∨
    (s.rraw ≠ s.config.maxRaw ∧ s.rxs = .hunt ∧ b ≠ 0xFF ∧
      takeByte b s = { s with rraw := s.rraw + 1, rxs := .frame, rlen := 1, hold := .one b }) ∨
    (s.rraw ≠ s.config.maxRaw ∧ s.rxs = .frame ∧
      takeByte b s = holdPush b { s with rraw := s.rraw + 1, rlen := s.rlen + 1 }) := by
  unfold takeByte
  split
  · next h => exact .inl ⟨h, rfl⟩
  · next h =>
    split
    · next hx =>
      by_cases hb : b = 0xFF
      · exact .inr (.inl ⟨h, hx, hb, if_pos hb⟩)
      · exact .inr (.inr (.inl ⟨h, hx, hb, if_neg hb⟩))
    · next hx => exact .inr (.inr (.inr ⟨h, hx, rfl⟩))

/-- The four verdicts, in the order of the tests. -/
theorem classify_cases (s : State) :
    (s.rraw = 0 ∧ classify s = .noData) ∨
    (s.rraw ≠ 0 ∧ s.rlen.toNat < 3 ∧ classify s = .short) ∨
    (s.rraw ≠ 0 ∧ 3 ≤ s.rlen.toNat ∧ checkField s.hold = s.racc ∧ classify s = .ok) ∨
    (s.rraw ≠ 0 ∧ 3 ≤ s.rlen.toNat ∧ checkField s.hold ≠ s.racc ∧ classify s = .crcErr) := by
  unfold classify minFrame
  split
  · next h => exact .inl ⟨h, rfl⟩
  · next h =>
    split
    · next h3 => exact .inr (.inl ⟨h, h3, rfl⟩)
    · next h3 =>
      split
      · next hc => exact .inr (.inr (.inl ⟨h, by omega, hc, rfl⟩))
      · next hc => exact .inr (.inr (.inr ⟨h, by omega, hc, rfl⟩))

@[simp] theorem checkField_two (a b : Byte) : checkField (.two a b) = joinBytes b a := rfl

/-- Reading register number `n` names a register exactly for the numbers up to 0x0A. -/
theorem regOfNumber_none_iff (n : Byte) : regOfNumber n = none ↔ 0x0B ≤ n.toNat := by
  revert n; decide

theorem regOfNumber_regNumber (r : Reg) : regOfNumber (regNumber r) = some r := by
  cases r <;> rfl

/-- `{hi, lo}` is the two bytes put together (R11). -/
theorem joinBytes_eq_append (hi lo : Byte) : joinBytes hi lo = hi ++ lo := by
  unfold joinBytes
  ext i h
  simp
  grind

@[simp] theorem joinBytes_high_low (w : Word) : joinBytes (highByte w) (lowByte w) = w := by
  unfold joinBytes highByte lowByte
  ext i h
  simp
  grind

/-- A line byte emits at most one event, on the RX frame output. -/
theorem takeByte_out (b : Byte) (s : State) :
    ∃ es : List FrameEvent, (takeByte b s).out = s.out ++ es.map .rx ∧ es.length ≤ 1 := by
  rcases takeByte_cases b s with ⟨_, h⟩ | ⟨_, _, _, h⟩ | ⟨_, _, _, h⟩ | ⟨_, _, h⟩ <;> rw [h]
  · exact ⟨[], by simp⟩
  · exact ⟨[], by simp⟩
  · exact ⟨[], by simp⟩
  · rcases holdPush_cases b { s with rraw := s.rraw + 1, rlen := s.rlen + 1 } with
      ⟨a, c, _, h⟩ | ⟨_, h⟩ | ⟨a, _, h⟩ <;> rw [h]
    · exact ⟨[.byte a], by simp⟩
    · exact ⟨[], by simp⟩
    · exact ⟨[], by simp⟩

end Sys2Proof.Machine
end

