-- ==== Sys2Proof/Laws/FrameCodec.lean ====
section
/-! SUPPORT. The source's functions over byte lists: lengths, parts, and one more byte. -/

namespace Sys2Proof.Machine

@[simp] theorem frameBody_length (d : List Byte) : (frameBody d).length = d.length - 2 := by simp [frameBody]

@[simp] theorem encodeFrame_length (d : List Byte) : (encodeFrame d).length = d.length + 2 := by simp [encodeFrame]

@[simp] theorem frameBody_encodeFrame (d : List Byte) : frameBody (encodeFrame d) = d := by
  simp [frameBody, encodeFrame]

@[simp] theorem lastTwo_encodeFrame (d : List Byte) : lastTwo (encodeFrame d) = crc16 d := by
  have e1 : (encodeFrame d).getD ((encodeFrame d).length - 1) 0 = highByte (crc16 d) := by simp [encodeFrame, List.getD]
  have e2 : (encodeFrame d).getD ((encodeFrame d).length - 2) 0 = lowByte (crc16 d) := by simp [encodeFrame, List.getD]
  rw [lastTwo, e1, e2, joinBytes_high_low]

/-- Stripping one byte more: it is padding while nothing has been taken, and frame data afterwards. -/
theorem stripIdle_snoc (r : List Byte) (b : Byte) :
    stripIdle (r ++ [b]) = if stripIdle r = [] then (if b = 0xFF then [] else [b]) else stripIdle r ++ [b] := by
  induction r with
  | nil => rfl
  | cons x r ih =>
    simp only [List.cons_append, stripIdle]
    split
    · exact ih
    · simp

theorem stripIdle_length_le (r : List Byte) : (stripIdle r).length ≤ r.length := by
  induction r with
  | nil => simp [stripIdle]
  | cons x r ih =>
    simp only [stripIdle]
    split
    · rw [List.length_cons]; omega
    · exact Nat.le_refl _

end Sys2Proof.Machine
end

