-- ==== Sys2Proof/Laws/PerInstr.lean ====
section
/-! SUPPORT. One lemma per instruction for statements about every instruction as syntax. -/

namespace Sys2Proof.Laws.TableRow

/-- The instruction's word selects a row of its port's opcode map that bears its mnemonic (30_encoding.md R64, R67). -/
def Statement (i : Instr) : Prop :=
  match encode i with
  | .host w => ∃ r ∈ hostRows, r.mnemonic = i.mnemonic ∧ r.selects w.toNat = true
  | .line w => ∃ r ∈ lineRows, r.mnemonic = i.mnemonic ∧ r.selects w.toNat = true

theorem nop : Statement .nop := by
  show ∃ r ∈ hostRows, _
  decide

theorem crcInit : Statement .crcInit := by
  show ∃ r ∈ hostRows, _
  decide

theorem crcByte (b : Byte) : Statement (.crcByte b) := by
  show ∃ r ∈ hostRows, _
  revert b; decide

theorem txStart : Statement .txStart := by
  show ∃ r ∈ hostRows, _
  decide

theorem txByte (b : Byte) : Statement (.txByte b) := by
  show ∃ r ∈ hostRows, _
  revert b; decide

theorem txEnd : Statement .txEnd := by
  show ∃ r ∈ hostRows, _
  decide

theorem regRead (n : Byte) : Statement (.regRead n) := by
  show ∃ r ∈ hostRows, _
  revert n; decide

theorem reset : Statement .reset := by
  show ∃ r ∈ hostRows, _
  decide

theorem lineIdle : Statement .lineIdle := by
  show ∃ r ∈ lineRows, _
  decide

theorem rxByte (b : Byte) : Statement (.rxByte b) := by
  show ∃ r ∈ lineRows, _
  revert b; decide

theorem rxEof : Statement .rxEof := by
  show ∃ r ∈ lineRows, _
  decide

theorem rxByteEof (b : Byte) : Statement (.rxByteEof b) := by
  show ∃ r ∈ lineRows, _
  revert b; decide

end Sys2Proof.Laws.TableRow
end

