-- ==== Sys2Proof/Laws/Ports.lean ====
section
/-! SUPPORT. The output ports' projections of an event record distribute over appending. -/

namespace Sys2Proof.Machine

@[simp] theorem txPort_nil : txPort [] = [] := rfl

@[simp] theorem rxPort_nil : rxPort [] = [] := rfl

@[simp] theorem responsePort_nil : responsePort [] = [] := rfl

@[simp] theorem txPort_append (a b : List PortEvent) : txPort (a ++ b) = txPort a ++ txPort b := by
  simp [txPort]

@[simp] theorem rxPort_append (a b : List PortEvent) : rxPort (a ++ b) = rxPort a ++ rxPort b := by
  simp [rxPort]

@[simp] theorem responsePort_append (a b : List PortEvent) :
    responsePort (a ++ b) = responsePort a ++ responsePort b := by
  simp [responsePort]

@[simp] theorem txPort_tx (b : Byte) : txPort [.tx b] = [b] := rfl

@[simp] theorem txPort_rx (e : FrameEvent) : txPort [.rx e] = [] := rfl

@[simp] theorem txPort_response (w : Word) : txPort [.response w] = [] := rfl

@[simp] theorem rxPort_tx (b : Byte) : rxPort [.tx b] = [] := rfl

@[simp] theorem rxPort_rx (e : FrameEvent) : rxPort [.rx e] = [e] := rfl

@[simp] theorem rxPort_response (w : Word) : rxPort [.response w] = [] := rfl

@[simp] theorem responsePort_tx (b : Byte) : responsePort [.tx b] = [] := rfl

@[simp] theorem responsePort_rx (e : FrameEvent) : responsePort [.rx e] = [] := rfl

@[simp] theorem responsePort_response (w : Word) : responsePort [.response w] = [w] := rfl

@[simp] theorem txPort_map_rx (es : List FrameEvent) : txPort (es.map .rx) = [] := by
  induction es <;> simp_all [txPort]

@[simp] theorem rxPort_map_rx (es : List FrameEvent) : rxPort (es.map .rx) = es := by
  induction es <;> simp_all [rxPort]

@[simp] theorem responsePort_map_rx (es : List FrameEvent) : responsePort (es.map .rx) = [] := by
  induction es <;> simp_all [responsePort]

end Sys2Proof.Machine
end

