-- ==== Sys2Proof/Laws/Step.lean ====
section
/-! SUPPORT. A step by the input at the head of the environment's list, and the meaning behind each arm of `exec`. -/

namespace Sys2Proof.Machine

@[simp] theorem andThen_next (s : State) (f : State → Host.Outcome State Fault Refusal) :
    andThen (.next s) f = f s := rfl

theorem step_of_inputs_cons (s : State) (i : Input) (rest : List Input) (h : s.inputs = i :: rest) :
    step s = performInput i { s with inputs := rest } := by
  simp [step, nextInput, takeInput, h]

theorem step_of_inputs_nil (s : State) (h : s.inputs = []) : step s = .next s := by
  simp only [step, nextInput, takeInput, h]
  rfl

@[simp] theorem performInput_cycle (l : LineWord) (c : Option HostWord) (s : State) :
    performInput (.cycle l c) s = andThen (exec (decodeLine l) s) (performCommand c) := rfl

@[simp] theorem performInput_hardwareReset (s : State) : performInput .hardwareReset s = .next (applyReset s) := rfl

@[simp] theorem performCommand_none (s : State) : performCommand none s = .next s := rfl

theorem performCommand_ok (w : HostWord) (i : Instr) (s : State) (h : decodeHost w = .ok i) :
    performCommand (some w) s = exec i s := by
  simp [performCommand, h]

theorem performCommand_error (w : HostWord) (e : CmdError) (s : State) (h : decodeHost w = .error e) :
    performCommand (some w) s = .next (raiseCmdError e s) := by
  simp [performCommand, h]

@[simp] theorem exec_nop (s : State) : exec .nop s = .next s := rfl

@[simp] theorem exec_lineIdle (s : State) : exec .lineIdle s = .next s := rfl

@[simp] theorem exec_crcInit (s : State) : exec .crcInit s = .next { s with cacc := 0xFFFF } := rfl

@[simp] theorem exec_crcByte (b : Byte) (s : State) :
    exec (.crcByte b) s = .next { s with cacc := crcStep s.cacc b } := rfl

@[simp] theorem exec_reset (s : State) : exec .reset s = .next (applyReset s) := rfl

@[simp] theorem exec_rxByte (b : Byte) (s : State) : exec (.rxByte b) s = .next (takeByte b s) := rfl

@[simp] theorem exec_rxEof (s : State) : exec .rxEof s = .next (endOfFrame s) := rfl

@[simp] theorem exec_rxByteEof (b : Byte) (s : State) :
    exec (.rxByteEof b) s = .next (endOfFrame (takeByte b s)) := rfl

theorem exec_txStart_idle (s : State) (h : s.txs = .idle) :
    exec .txStart s = .next { s with txs := .payload, tacc := 0xFFFF } := by
  simp [exec, execTxStart, h, crcInitial]

theorem exec_txStart_payload (s : State) (h : s.txs = .payload) :
    exec .txStart s = .next (raiseCmdError .seq s) := by
  simp [exec, execTxStart, h]

theorem exec_txByte_payload (b : Byte) (s : State) (h : s.txs = .payload) :
    exec (.txByte b) s = .next { s with tacc := crcStep s.tacc b, out := s.out ++ [.tx b] } := by
  simp [exec, execTxByte, h, emit]

theorem exec_txByte_idle (b : Byte) (s : State) (h : s.txs = .idle) :
    exec (.txByte b) s = .next (raiseCmdError .seq s) := by
  simp [exec, execTxByte, h]

theorem exec_txEnd_payload (s : State) (h : s.txs = .payload) :
    exec .txEnd s =
      .next { s with txs := .idle, out := s.out ++ [.tx (lowByte s.tacc), .tx (highByte s.tacc)] } := by
  simp [exec, execTxEnd, h, emit]

theorem exec_txEnd_idle (s : State) (h : s.txs = .idle) :
    exec .txEnd s = .next (raiseCmdError .seq s) := by
  simp [exec, execTxEnd, h]

theorem exec_regRead_some (n : Byte) (r : Reg) (s : State) (h : regOfNumber n = some r) :
    exec (.regRead n) s = .next { s with out := s.out ++ [.response (regValue s r)] } := by
  simp [exec, execRegRead, h, emit]

theorem exec_regRead_none (n : Byte) (s : State) (h : regOfNumber n = none) :
    exec (.regRead n) s = .next (raiseCmdError .badReg { s with out := s.out ++ [.response 0] }) := by
  simp [exec, execRegRead, h, emit]

theorem runSteps_succ_of_step (n : Nat) (s t : State) (h : step s = .next t) :
    runSteps (n + 1) s = runSteps n t := by
  have h' : Host.Core.step Sys2Proof.core s = .next t := h
  simp only [runSteps, Host.Core.run, h']
  rfl

@[simp] theorem runSteps_zero (s : State) : runSteps 0 s = .next s := rfl

/-- No meaning stops. -/
theorem exec_next (i : Instr) (s : State) : ∃ t, exec i s = .next t := by
  cases i with
  | txStart => simp only [exec, execTxStart]; split <;> exact ⟨_, rfl⟩
  | txByte b => simp only [exec, execTxByte]; split <;> exact ⟨_, rfl⟩
  | txEnd => simp only [exec, execTxEnd]; split <;> exact ⟨_, rfl⟩
  | regRead n => simp only [exec, execRegRead]; split <;> exact ⟨_, rfl⟩
  | _ => exact ⟨_, rfl⟩

theorem performCommand_next (c : Option HostWord) (s : State) : ∃ t, performCommand c s = .next t := by
  unfold performCommand
  split
  · exact ⟨_, rfl⟩
  · split
    · exact exec_next _ _
    · exact ⟨_, rfl⟩

/-- A cycle is its line event, then its command. -/
theorem performInput_cycle_cases (l : LineWord) (c : Option HostWord) (s : State) :
    ∃ u t, exec (decodeLine l) s = .next u ∧ performCommand c u = .next t ∧ performInput (.cycle l c) s = .next t := by
  obtain ⟨u, hu⟩ := exec_next (decodeLine l) s
  obtain ⟨t, ht⟩ := performCommand_next c u
  exact ⟨u, t, hu, ht, by rw [performInput_cycle, hu, andThen_next, ht]⟩

/-- A run goes on after its first input. -/
theorem runSteps_of_inputs_cons (n : Nat) (s t : State) (i : Input) (rest : List Input) (h : s.inputs = i :: rest)
    (hp : performInput i { s with inputs := rest } = .next t) : runSteps (n + 1) s = runSteps n t :=
  runSteps_succ_of_step n s t (by rw [step_of_inputs_cons s i rest h, hp])

end Sys2Proof.Machine
end

