-- ==== Sys2Proof/Tests/Slice0.lean ====
section
/-! SUPPORT. Tests: the words of spec/30_encoding.md and the vectors of spec/95_test_vectors.md, checked by one step or
one word each; the checks of WellFormed; and a witness for the hypotheses of every statement that has some. -/

namespace Sys2Proof.Tests

open Sys2Proof Sys2Proof.Machine

/-! ### Decoding: each constructor's word, from the encodings of R64, R67, L2.6 and L2.7 -/

theorem test_decode_nop : decodeHost 0b0000000000000000 = .ok .nop := by decide

theorem test_decode_crcInit : decodeHost 0b0000000100000000 = .ok .crcInit := by decide

theorem test_decode_crcByte : decodeHost 0b0000001001000001 = .ok (.crcByte 0x41) := by decide

theorem test_decode_txStart : decodeHost 0b0001000000000000 = .ok .txStart := by decide

theorem test_decode_txByte : decodeHost 0b0001000111111101 = .ok (.txByte 0xFD) := by decide

theorem test_decode_txEnd : decodeHost 0b0001001000000000 = .ok .txEnd := by decide

theorem test_decode_regRead : decodeHost 0b0010000000001001 = .ok (.regRead 0x09) := by decide

/-- A reserved register number is a legal encoding (R72). -/
theorem test_decode_regRead_reserved : decodeHost 0b0010000011111111 = .ok (.regRead 0xFF) := by decide

theorem test_decode_reset : decodeHost 0b0011000000000000 = .ok .reset := by decide

theorem test_decode_lineIdle : decodeLine 0b0000000000 = .lineIdle ∧ decodeLine 0b0010101011 = .lineIdle := by decide

theorem test_decode_rxByte : decodeLine 0b0111111101 = .rxByte 0xFD := by decide

theorem test_decode_rxEof : decodeLine 0b1000000000 = .rxEof ∧ decodeLine 0b1010101011 = .rxEof := by decide

theorem test_decode_rxByteEof : decodeLine 0b1100010110 = .rxByteEof 0x16 := by decide

theorem test_decode_badOperand :
    [0x0001#16, 0x00FF, 0x0101, 0x01FF, 0x1001, 0x1280, 0x3001, 0x30FF].map decodeHost =
      List.replicate 8 (.error .badOperand) := by
  decide +kernel

theorem test_decode_undefOp :
    [0x0300#16, 0x0F00, 0x1300, 0x2100, 0x3100, 0x4000, 0x8000, 0xFFFF].map decodeHost =
      List.replicate 8 (.error .undefOp) := by
  decide +kernel

theorem test_decodeTableWord :
    decodeTableWord 16 0x0241 = some (.crcByte 0x41) ∧ decodeTableWord 16 0x3001 = none ∧
      decodeTableWord 10 0x1FD = some (.rxByte 0xFD) ∧ decodeTableWord 10 0x400 = none := by decide

/-- No two rows of one port select the same word. -/
theorem test_hostRows_disjoint :
    hostRows.Pairwise fun r r' => r.pattern &&& r'.mask ≠ r'.pattern ∧ r'.pattern &&& r.mask ≠ r.pattern := by decide

theorem test_lineRows_disjoint :
    lineRows.Pairwise fun r r' => r.pattern &&& r'.mask ≠ r'.pattern ∧ r'.pattern &&& r.mask ≠ r.pattern := by decide

/-! ### WellFormed: an ill-formed term for each check -/

theorem test_wf_line_part_takes_a_line_form :
    CycleSource.wf { line := some .nop, host := none } = false ∧
      assembleCycle { line := some .nop, host := none } = none := by decide

theorem test_wf_host_part_takes_a_host_command :
    HostSource.wf (.command .rxEof) = false ∧ Source.wf (.cycle { line := none, host := some (.command .rxEof) }) = false ∧
      assembleCycle { line := none, host := some (.command .rxEof) } = none := by decide

theorem test_wf_isHost : Instr.isHost (.rxByte 0x00) = false ∧ Instr.isLine (.txByte 0x00) = false := by decide

theorem test_wf_maxRaw : Config.wf { maxRaw := 2 } = false ∧ Config.wf { maxRaw := 3 } = true := by decide

theorem test_wf_accepts :
    CycleSource.wf { line := some (.rxByte 0xFD), host := some (.word 0x4000) } = true := by decide

/-! ### Small states -/

/-- A generated frame is open. -/
def payloadState : State := { State.reset with txs := .payload }

/-- After the raw bytes `FF FF FD 46 01 13` (L2.4). -/
def openWindow : State :=
  { State.reset with rxs := .frame, racc := 0xD2C0, hold := .two 0x01 0x13, rlen := 4, rraw := 6 }

/-- After one frame byte. -/
def oneByteWindow : State := { State.reset with rxs := .frame, hold := .one 0xFD, rlen := 1, rraw := 1 }

/-- After the two frame bytes `FD 46`. -/
def twoByteWindow : State := { State.reset with rxs := .frame, hold := .two 0xFD 0x46, rlen := 2, rraw := 2 }

/-- The frame of F12, `00 BF 40`, before its end of frame. -/
def goodWindow : State :=
  { State.reset with rxs := .frame, racc := 0x40BF, hold := .two 0xBF 0x40, rlen := 3, rraw := 3 }

/-- FRAME with nothing held, which no run reaches. -/
def unreachedWindow : State := { oneByteWindow with hold := .empty }

/-- At the least MAX_RAW, a frame is to be received. -/
def shortestFrame (frame : List Byte) : State :=
  { State.reset with config := { maxRaw := 3 }, inputs := rxFrame frame }

/-- MAX_RAW is 3 and three bytes of padding have been taken. -/
def fullWindow : State := { State.reset with config := { maxRaw := 3 }, rraw := 3 }

/-- UNDEF_OP was the first error, a window was closed OK with overflow, and a frame is open in both channels. -/
def busyState : State :=
  { openWindow with
    txs := .payload, cerr := true, ecode := some .undefOp, lverd := some .ok, lovf := true, rovf := true }

/-- The state after `i` is presented alone at `s`. -/
def afterInput (i : Input) (s : State) : Option State := nextOf (step { s with inputs := [i] })

/-- The state after an instruction's own effect. -/
def afterInstr (i : Instr) (s : State) : Option State := nextOf (exec i s)

/-! ### The CRC (L2.1) -/

theorem test_crcStep :
    crcStep 0xFFFF 0xFD = 0xC17E ∧ crcStep 0x1234 0x56 = 0xE993 ∧ crcStep 0xA001 0x01 = 0x00A0 ∧
      crcStep 0x0000 0x80 = 0xA001 ∧ crcStep 0x8000 0x00 = 0x0080 := by decide +kernel

theorem test_crc16_check_value :
    crc16 [0x31, 0x32, 0x33, 0x34, 0x35, 0x36, 0x37, 0x38, 0x39] = 0x4B37 := by decide +kernel

theorem test_encodeFrame : encodeFrame [0xFD, 0x46, 0x02] = [0xFD, 0x46, 0x02, 0x53, 0x91] := by decide +kernel

/-! ### One step or one instruction each -/

theorem test_nop : afterInput (.cycle 0x000 (some 0x0000)) busyState = some { busyState with inputs := [] } := by
  decide +kernel

theorem test_crcInit : (afterInput (.cycle 0x000 (some 0x0100)) { State.reset with cacc := 0x707F }).map State.cacc =
    some 0xFFFF := by decide +kernel

theorem test_crcByte : (afterInput (.cycle 0x000 (some 0x0241)) State.reset).map State.cacc = some 0x707F := by
  decide +kernel

theorem test_txStart : (afterInput (.cycle 0x000 (some 0x1000)) State.reset).map
    (fun t => (t.txs, t.tacc, statusWord t)) = some (.payload, 0xFFFF, 0x0001) := by decide +kernel

theorem test_txStart_seq : (afterInput (.cycle 0x000 (some 0x1000)) payloadState).map
    (fun t => (t.txs, t.ecode, statusWord t)) = some (.payload, some .seq, 0x00E1) := by decide +kernel

theorem test_txByte : (afterInput (.cycle 0x000 (some 0x11FD)) payloadState).map (fun t => (t.tacc, t.out)) =
    some (0xC17E, [.tx 0xFD]) := by decide +kernel

theorem test_txByte_seq : (afterInput (.cycle 0x000 (some 0x1100)) State.reset).map
    (fun t => (statusWord t, t.tacc, t.out)) = some (0x00E0, 0xFFFF, []) := by decide +kernel

theorem test_txEnd : (afterInput (.cycle 0x000 (some 0x1200)) { payloadState with tacc := 0x9013 }).map
    (fun t => (t.txs, t.tacc, t.out)) = some (.idle, 0x9013, [.tx 0x13, .tx 0x90]) := by decide +kernel

theorem test_txEnd_seq : (afterInput (.cycle 0x000 (some 0x1200)) State.reset).map (fun t => (statusWord t, t.out)) =
    some (0x00E0, []) := by decide +kernel

/-- P5, cycle 4: TXS 1, RXS 1, HCNT 2, CERR 1, ECODE SEQ. -/
theorem test_regRead_status :
    (afterInput (.cycle 0x000 (some 0x2000))
      { openWindow with txs := .payload, cerr := true, ecode := some .seq }).map State.out =
    some [.response 0x00EB] := by decide +kernel

theorem test_regRead_reserved : (afterInput (.cycle 0x000 (some 0x200B)) State.reset).map
    (fun t => (statusWord t, t.out)) = some (0x0120, [.response 0x0000]) := by decide +kernel

theorem test_reset : afterInput (.cycle 0x000 (some 0x3000)) busyState = some State.reset := by decide +kernel

theorem test_hardwareReset : afterInput .hardwareReset busyState = some State.reset := by decide +kernel

theorem test_lineIdle : afterInput (.cycle 0x0AB none) openWindow = some openWindow := by decide +kernel

/-- L2.4, the row of `01`. -/
theorem test_rxByte : (afterInput (.cycle 0x101 none) twoByteWindow).map
    (fun t => (t.rlen, t.rraw, t.racc, t.hold, t.out)) =
    some (3, 3, 0xC17E, .two 0x46 0x01, [.rx (.byte 0xFD)]) := by decide +kernel

/-- R110: a byte past MAX_RAW only sets ROVF. -/
theorem test_rxByte_overflow : afterInput (.cycle 0x1AA none) fullWindow = some { fullWindow with rovf := true } := by
  decide +kernel

/-- F18: LRECV 1301, LCALC D2C0, FRAME_END `A8000004`. -/
theorem test_rxEof_crcErr :
    (afterInput (.cycle 0x200 none) { openWindow with rovf := true }).map
      (fun t => ((rxPort t.out).map FrameEvent.word, t.lrecv, t.lcalc, statusWord t)) =
    some ([0xA8000004], 0x1301, 0xD2C0, 0x1400) := by decide +kernel

/-- F8: no bytes. -/
theorem test_rxEof_noData :
    (afterInput (.cycle 0x2AB none) State.reset).map (fun t => ((rxPort t.out).map FrameEvent.word, statusWord t, t.fcnt)) =
    some ([0xC0000000], 0x0800, 1) := by decide +kernel

/-- F2: the last byte `90` comes with the end of frame. -/
theorem test_rxByteEof :
    (afterInput (.cycle 0x390 none) openWindow).map
      (fun t => ((rxPort t.out).map FrameEvent.word, t.llen, t.lrecv, t.lcalc, statusWord t)) =
    some ([0x00000001, 0x90000005], 5, 0x9013, 0x9013, 0x0200) := by decide +kernel

/-- F5 in one cycle with the read: the command sees the closed window (R143). -/
theorem test_cycle_order :
    (afterInput (.cycle 0x346 (some 0x2000)) oneByteWindow).map State.out =
    some [.rx (.finish .short false 2), .response 0x0600] := by decide +kernel

/-- R121: a later error does not replace the first. -/
theorem test_first_error_kept : (afterInput (.cycle 0x000 (some 0x0101)) busyState).map
    (fun t => (t.ecode, t.cacc)) = some (some .undefOp, 0xFFFF) := by decide +kernel

/-! ### The assembler (R74 to R79) -/

theorem test_assemble_word : assembleLine "H: .word 0x4000 ; undefined" = some [.cycle 0x000 (some 0x4000)] := by decide +kernel

theorem test_assemble_refuses :
    assembleLine "L: NOP" = none ∧ assembleLine "H: TX_BYTE 256" = none ∧ assembleLine "H: RX_EOF" = none := by
  decide +kernel

theorem test_assemble_pseudo :
    assembleLine "RXFRAME 0xFD, 70" = some [.cycle 0x1FD none, .cycle 0x146 none, .cycle 0x200 none] := by
  decide +kernel

/-! ### Witnesses: concrete states and operands that meet a statement's hypotheses, clause by clause -/

theorem witness_HostDecoderFollowsTheOpcodeMap :
    (∀ op ∈ [0x03#8, 0x0F, 0x13, 0x21, 0x31, 0xFF], op ∉ [0x00#8, 0x01, 0x02, 0x10, 0x11, 0x12, 0x20, 0x30]) ∧
      decodeHost 0x02FF = .ok (.crcByte 0xFF) ∧ decodeHost 0x1280 = .error .badOperand ∧
      decodeHost 0xFFFF = .error .undefOp := by decide

theorem witness_EncodeOfDecodeIsTheCanonicalWord :
    decode (.host 0x3000) = .ok .reset ∧ decode (.line 0x0AB) = .ok .lineIdle ∧ decode (.line 0x2FF) = .ok .rxEof ∧
      decode (.line 0x3FF) = .ok (.rxByteEof 0xFF) := by decide

theorem witness_StepPerformsTheCycle :
    ({ State.reset with inputs := [.cycle 0x316 (some 0x2000), .hardwareReset] } : State).inputs =
      .cycle 0x316 (some 0x2000) :: [.hardwareReset] := rfl

theorem witness_StepRunsTheDecodedInstruction :
    ({ State.reset with inputs := [.cycle 0x1FD none] } : State).inputs = .cycle 0x1FD none :: [] ∧
      decodeHost 0x1000 = .ok .txStart ∧
      ({ State.reset with inputs := [.cycle 0x000 (some 0x1000)] } : State).inputs = .cycle 0x000 (some 0x1000) :: [] ∧
      ({ State.reset with inputs := [.cycle 0x200 (some 0x1000)] } : State).inputs = .cycle 0x200 (some 0x1000) :: [] := by
  decide

theorem witness_StepWithNothingPresentedIsIdle : State.reset.inputs = [] := rfl

theorem witness_PresentedWordRunsNext : decodeHost 0x11FF = .ok (.txByte 0xFF) := by decide

theorem witness_CrcFoldIsInjectiveInTheAccumulator : crcFold 0x1234 [0x56] = crcFold 0x1234 [0x56] := rfl

/-- Of CrcInitSetsTheAccumulator, TxStartOpensAFrame, TxEndAppendsTheCheckField, NopAndLineIdleChangeNothing and
ResetCommandRestoresTheResetState: a must-be-zero operand that is not zero, the least and the greatest. -/
theorem witness_nonzero_operand : (0x01#8 ≠ 0) ∧ (0xFF#8 ≠ 0) := by decide

/-- Of TxStartOpensAFrame, TxByteEmitsAndAccumulates and TxEndAppendsTheCheckField: both states of TXS. -/
theorem witness_generator_states : State.reset.txs = .idle ∧ payloadState.txs = .payload := by decide

/-- R92 with a line event, a CRC command, an illegal word, a NOP and an empty slot between the commands. -/
theorem witness_GeneratedFrameIsEncodeOfThePayload :
    (∀ i ∈ [Input.cycle 0x1FD (some 0x1000), .cycle 0x200 (some 0x0241), .cycle 0x000 (some 0x11FD),
        .cycle 0x000 (some 0x4000), .cycle 0x000 none, .cycle 0x000 (some 0x1200)], i ≠ .hardwareReset) ∧
      State.reset.txs = .idle ∧
      [Input.cycle 0x1FD (some 0x1000), .cycle 0x200 (some 0x0241), .cycle 0x000 (some 0x11FD),
        .cycle 0x000 (some 0x4000), .cycle 0x000 none, .cycle 0x000 (some 0x1200)].filterMap generatorCommand =
        .txStart :: [0xFD#8].map .txByte ++ [.txEnd] := by decide

/-- The first and the last implemented register, one between, and the reserved numbers at both ends. -/
theorem witness_RegReadRespondsWithTheRegister :
    (∀ v ∈ [(0x00#8, statusWord busyState), (0x05, busyState.rraw), (0x0A, busyState.config.maxRaw)],
      v ∈ [(0x00#8, statusWord busyState), (0x01, busyState.cacc), (0x02, busyState.tacc), (0x03, busyState.racc),
        (0x04, busyState.rlen), (0x05, busyState.rraw), (0x06, busyState.llen), (0x07, busyState.lrecv),
        (0x08, busyState.lcalc), (0x09, busyState.fcnt), (0x0A, busyState.config.maxRaw)]) ∧
      0x0B ≤ (0x0B#8).toNat ∧ 0x0B ≤ (0xFF#8).toNat :=
  ⟨by simp, by decide, by decide⟩

theorem witness_BothResetsApplyTheResetValues :
    ({ busyState with inputs := [.hardwareReset] } : State).inputs = .hardwareReset :: [] := rfl

theorem witness_CommandErrorRecordsTheFirstCode :
    decodeHost 0x4000 = .error .undefOp ∧ decodeHost 0x0101 = .error .badOperand ∧ State.reset.cerr = false ∧
      busyState.cerr = true ∧ payloadState.txs = .payload ∧ State.reset.txs = .idle ∧ 0x0B ≤ (0x0B#8).toNat ∧
      0x0B ≤ (0xFF#8).toNat := by decide

theorem witness_ErrorsAndVerdictsAreContained :
    decodeHost 0x3001 = .error .badOperand ∧ payloadState.txs = .payload ∧ State.reset.txs = .idle ∧
      0x0B ≤ (0x0B#8).toNat ∧ Instr.isLine (.rxByteEof 0x00) = true ∧
      (∃ t, exec (.rxByteEof 0x00) busyState = .next t) :=
  ⟨rfl, rfl, rfl, by decide, rfl, _, rfl⟩

theorem witness_FirstErrorIsKeptUntilReset :
    busyState.cerr = true ∧ resets (nextInput { busyState with inputs := [.cycle 0x000 (some 0x1001)] }) = false ∧
      (∃ t, step { busyState with inputs := [.cycle 0x000 (some 0x1001)] } = .next t) ∧
      resets (nextInput { busyState with inputs := [.hardwareReset] }) = true ∧
      resets (nextInput { busyState with inputs := [.cycle 0x1FD (some 0x3000)] }) = true :=
  ⟨rfl, by decide, ⟨_, rfl⟩, by decide, by decide⟩

theorem witness_NothingDependsOnTheReportedErrors :
    Instr.regRead 0x01 ≠ .regRead 0x00 ∧ Instr.txStart ≠ .regRead 0x00 ∧ Instr.rxEof ≠ .regRead 0x00 := by decide

theorem witness_InstructionsWriteOnlyTheirElements :
    (∃ t, exec (.txByte 0xFD) payloadState = .next t) ∧ (∃ t, exec .rxEof openWindow = .next t) ∧
      Instr.isHost (.txByte 0xFD) = true ∧ Instr.isLine .rxEof = true :=
  ⟨⟨_, rfl⟩, ⟨_, rfl⟩, rfl, rfl⟩

theorem witness_GeneratorAndFramerAreUncoupled :
    SameGenerator payloadState { openWindow with txs := .payload } ∧ SameFramer openWindow { openWindow with txs := .payload } ∧
      Instr.isLine .rxEof = true := by
  refine ⟨⟨rfl, rfl⟩, ⟨rfl, rfl, rfl, rfl, rfl, rfl, rfl⟩, rfl⟩

/-- Of MaxRawIsConstant and StepAppendsLineEventsThenCommandEvents. -/
theorem witness_step_answers : ∃ t, step { openWindow with inputs := [.cycle 0x390 (some 0x1200)] } = .next t :=
  ⟨_, rfl⟩

/-- R98: a dropped byte; padding and a first byte in HUNT; and in FRAME an empty hold line (RXS FRAME with none held is
not reached), one byte held, two bytes held. -/
theorem witness_RxByteTakesALineByte :
    fullWindow.rraw = fullWindow.config.maxRaw ∧
      (State.reset.rraw ≠ State.reset.config.maxRaw ∧ State.reset.rxs = .hunt ∧ (0xFE#8 ≠ 0xFF)) ∧
      (unreachedWindow.rraw ≠ unreachedWindow.config.maxRaw ∧ unreachedWindow.rxs = .frame ∧
        unreachedWindow.hold = .empty) ∧
      (oneByteWindow.rraw ≠ oneByteWindow.config.maxRaw ∧ oneByteWindow.rxs = .frame ∧ oneByteWindow.hold = .one 0xFD) ∧
      (openWindow.rraw ≠ openWindow.config.maxRaw ∧ openWindow.rxs = .frame ∧ openWindow.hold = .two 0x01 0x13) := by
  decide

/-- The open window of L2.4 meets R43. -/
theorem witness_Inv_openWindow : Inv openWindow where
  window := { hunt := by decide, frame := by decide, holdCount := by decide, bounds := by decide, overflow := by decide }
  frameBytes := ⟨[0xFD, 0x46, 0x01, 0x13], by unfold FrameBytes; decide +kernel⟩
  error := by unfold ErrorInv; decide
  verdict := by unfold VerdictInv; decide

/-- R102: no raw byte; raw bytes with stripped length 0 and 2; stripped length 3, the check field right and wrong. -/
theorem witness_RxEofReportsAndClosesTheWindow :
    State.reset.rraw = 0 ∧ (fullWindow.rraw ≠ 0 ∧ fullWindow.rlen.toNat < 3) ∧
      (twoByteWindow.rraw ≠ 0 ∧ twoByteWindow.rlen.toNat < 3) ∧
      (goodWindow.rraw ≠ 0 ∧ 3 ≤ goodWindow.rlen.toNat ∧ goodWindow.hold = .two 0xBF 0x40 ∧
        0x40#8 ++ 0xBF#8 = goodWindow.racc) ∧
      (openWindow.rraw ≠ 0 ∧ 3 ≤ openWindow.rlen.toNat ∧ openWindow.hold = .two 0x01 0x13 ∧
        0x13#8 ++ 0x01#8 ≠ openWindow.racc) ∧
      Inv openWindow :=
  ⟨by decide, by decide, by decide, by decide, by decide, witness_Inv_openWindow⟩

/-- Of the statements about one receive window. -/
theorem witness_FreshWindow : FreshWindow State.reset ∧ State.reset.config.wf = true := by
  refine ⟨⟨rfl, rfl, rfl, rfl, rfl, rfl⟩, by decide⟩

/-- The window of L2.4, an idle line word and a command among its cycles. -/
theorem witness_OpenWindowHoldsTheFrameBytes :
    (∀ i ∈ [Input.cycle 0x1FF none, .cycle 0x0AB (some 0x1000), .cycle 0x1FD none, .cycle 0x146 (some 0x4000)],
        resets i = false ∧ endsFrame i = false) ∧
      [Input.cycle 0x1FF none, .cycle 0x0AB (some 0x1000), .cycle 0x1FD none, .cycle 0x146 (some 0x4000)].filterMap
        lineByteOf = [0xFF, 0xFD, 0x46] ∧ FreshWindow State.reset ∧ State.reset.config.wf = true :=
  ⟨by decide, by decide, witness_FreshWindow⟩

/-- The frame of F12, closed with its last byte, and a window of no bytes closed by RX_EOF. -/
theorem witness_WindowReportsTheSourceFunctions :
    (∀ i ∈ [Input.cycle 0x100 none, .cycle 0x1BF (some 0x2000)], resets i = false ∧ endsFrame i = false) ∧
      resets (.cycle 0x340 none) = false ∧ endsFrame (.cycle 0x340 none) = true ∧
      ([.cycle 0x100 none, .cycle 0x1BF (some 0x2000), .cycle 0x340 none] : List Input).filterMap lineByteOf =
        [0x00, 0xBF, 0x40] ∧
      endsFrame (.cycle 0x200 none) = true ∧ ([.cycle 0x200 none] : List Input).filterMap lineByteOf = [] ∧
      FreshWindow State.reset ∧ State.reset.config.wf = true :=
  ⟨by decide, by decide, by decide, by decide, by decide, by decide, witness_FreshWindow⟩

/-- The shortest payload, at the least MAX_RAW: one byte, MAX_RAW 3. -/
theorem witness_GeneratedFrameIsReceivedIntact :
    (shortestFrame (encodeFrame [0xFE])).inputs = rxFrame (encodeFrame [0xFE]) ++ [] ∧
      (shortestFrame (encodeFrame [0xFE])).config.wf = true ∧ FreshWindow (shortestFrame (encodeFrame [0xFE])) ∧
      1 ≤ [0xFE#8].length ∧ [0xFE#8].head? ≠ some 0xFF ∧
      [0xFE#8].length + 2 ≤ (shortestFrame (encodeFrame [0xFE])).config.maxRaw.toNat :=
  ⟨by simp [shortestFrame], rfl, ⟨rfl, rfl, rfl, rfl, rfl, rfl⟩, by decide, by decide, show 3 ≤ 3 by decide⟩

/-- The shortest frame with bit `k` of its byte `j` flipped. -/
def flippedFrame (j k : Nat) : List Byte := (encodeFrame [0xFE]).modify j fun b => b ^^^ (1#8 <<< k)

theorem witness_SingleBitErrorIsDetected_first :
    1 ≤ [0xFE#8].length ∧ [0xFE#8].head? ≠ some 0xFF ∧
      [0xFE#8].length + 2 ≤ (shortestFrame (flippedFrame 0 0)).config.maxRaw.toNat ∧ 0 < [0xFE#8].length + 2 ∧
      (shortestFrame (flippedFrame 0 0)).config.wf = true ∧ FreshWindow (shortestFrame (flippedFrame 0 0)) ∧
      (shortestFrame (flippedFrame 0 0)).inputs = rxFrame (flippedFrame 0 0) ++ [] :=
  ⟨by decide, by decide, show 3 ≤ 3 by decide, by decide, rfl, ⟨rfl, rfl, rfl, rfl, rfl, rfl⟩, by simp [shortestFrame]⟩

theorem witness_SingleBitErrorIsDetected_last :
    1 ≤ [0xFE#8].length ∧ [0xFE#8].head? ≠ some 0xFF ∧
      [0xFE#8].length + 2 ≤ (shortestFrame (flippedFrame 2 7)).config.maxRaw.toNat ∧ 2 < [0xFE#8].length + 2 ∧
      (shortestFrame (flippedFrame 2 7)).config.wf = true ∧ FreshWindow (shortestFrame (flippedFrame 2 7)) ∧
      (shortestFrame (flippedFrame 2 7)).inputs = rxFrame (flippedFrame 2 7) ++ [] :=
  ⟨by decide, by decide, show 3 ≤ 3 by decide, by decide, rfl, ⟨rfl, rfl, rfl, rfl, rfl, rfl⟩, by simp [shortestFrame]⟩

/-- Padding and window fill MAX_RAW exactly. -/
theorem witness_IdlePaddingDoesNotChangeTheReport :
    [0xFD#8, 0x46] ≠ [] ∧ 254 + [0xFD#8, 0x46].length ≤ State.reset.config.maxRaw.toNat ∧
      State.reset.config.wf = true ∧ FreshWindow State.reset :=
  ⟨by decide, by decide, witness_FreshWindow.2, witness_FreshWindow.1⟩

theorem witness_EachEndOfFrameClosesOneWindow :
    ∀ i ∈ [Input.cycle 0x200 none, .cycle 0x3FD (some 0x2000), .cycle 0x1FD none], resets i = false := by decide

/-- An invariant-keeping step from a window with two bytes held. -/
theorem witness_StepKeepsTheInvariants :
    Inv { openWindow with inputs := [.cycle 0x390 none] } ∧
      ∃ t, step { openWindow with inputs := [.cycle 0x390 none] } = .next t :=
  ⟨{ window := { hunt := by decide, frame := by decide, holdCount := by decide, bounds := by decide, overflow := by decide }
     frameBytes := ⟨[0xFD, 0x46, 0x01, 0x13], by unfold FrameBytes; decide +kernel⟩
     error := by unfold ErrorInv; decide
     verdict := by unfold VerdictInv; decide }, _, rfl⟩

theorem witness_CrcBlockComputesTheCrc :
    ({ State.reset with inputs := crcBlock [0xFD, 0x46, 0x01] ++ [] } : State).inputs =
      crcBlock [0xFD, 0x46, 0x01] ++ [] := rfl

end Sys2Proof.Tests
end

section
/-! PROOFS. The state (10_state.md): STATUS, MAX_RAW, the first command error, and the count of closed windows. -/

namespace Sys2Proof.Machine

/-! ### The fields of STATUS -/

theorem TxState.bit_eq_decide (t : TxState) : t.bit = decide (t = .payload) := by cases t <;> rfl

theorem RxState.bit_eq_decide (r : RxState) : r.bit = decide (r = .frame) := by cases r <;> rfl

/-- HCNT is the length of HOLD (R28). -/
theorem Hold.count_eq_length (h : Hold) : h.count = BitVec.ofNat 2 (holdList h).length := by cases h <;> rfl

/-- The layout of STATUS: which field each bit belongs to, and which bit of that field it is (R41). -/
theorem statusWord_getLsbD (s : State) (i : Nat) :
    (statusWord s).getLsbD i =
      if i = 0 then s.txs.bit
      else if i = 1 then s.rxs.bit
      else if i < 4 then s.hold.count.getLsbD (i - 2)
      else if i = 4 then s.rovf
      else if i = 5 then s.cerr
      else if i < 9 then (ecodeBits s.ecode).getLsbD (i - 6)
      else if i < 12 then (lverdCode s.lverd).getLsbD (i - 9)
      else if i = 12 then s.lovf
      else false := by
  by_cases hi : i < 16
  · unfold statusWord
    interval_cases i <;> simp [BitVec.getLsbD_of_ge]
  · rw [BitVec.getLsbD_of_ge _ _ (by omega)]
    grind

/-- A field of a word is the field value when its bits are. -/
theorem extractLsb'_eq_of_getLsbD {m n : Nat} (w : BitVec m) (k : Nat) (f : BitVec n)
    (h : ∀ i < n, w.getLsbD (k + i) = f.getLsbD i) : w.extractLsb' k n = f := by
  apply BitVec.eq_of_getLsbD_eq
  intro i hi
  simp [hi, h i hi]

@[simp] theorem statusWord_hcnt (s : State) : (statusWord s).extractLsb' 2 2 = s.hold.count :=
  extractLsb'_eq_of_getLsbD _ _ _ fun i hi => by rw [statusWord_getLsbD]; grind

@[simp] theorem statusWord_ecode (s : State) : (statusWord s).extractLsb' 6 3 = ecodeBits s.ecode :=
  extractLsb'_eq_of_getLsbD _ _ _ fun i hi => by rw [statusWord_getLsbD]; grind

@[simp] theorem statusWord_lverd (s : State) : (statusWord s).extractLsb' 9 3 = lverdCode s.lverd :=
  extractLsb'_eq_of_getLsbD _ _ _ fun i hi => by rw [statusWord_getLsbD]; grind

@[simp] theorem statusWord_reserved (s : State) : (statusWord s).extractLsb' 13 3 = 0 :=
  extractLsb'_eq_of_getLsbD _ _ _ fun i hi => by rw [statusWord_getLsbD]; grind

@[simp] theorem statusWord_reset : statusWord State.reset = 0 := by decide

/-- Settles O24: each field is read off the layout of STATUS, bit by bit. -/
theorem statusWordFields : Obligations.StatusWordFields := by
  refine ⟨fun s => ⟨?txs, ?rxs, ?hcnt, ?rovf, ?cerr, ?ecode, ?lverd, ?lovf, ?reserved⟩, statusWord_reset⟩
  case txs => rw [statusWord_getLsbD, ← TxState.bit_eq_decide]; rfl
  case rxs => rw [statusWord_getLsbD, ← RxState.bit_eq_decide]; rfl
  case hcnt => rw [statusWord_hcnt, Hold.count_eq_length]
  case rovf => rw [statusWord_getLsbD]; rfl
  case cerr => rw [statusWord_getLsbD]; rfl
  case ecode => rw [statusWord_ecode]; rcases s.ecode with _ | _ | _ | _ | _ <;> rfl
  case lverd => rw [statusWord_lverd]; rcases s.lverd with _ | _ | _ | _ | _ <;> rfl
  case lovf => rw [statusWord_getLsbD]; rfl
  case reserved => exact statusWord_reserved s

/-! ### What a command does to the rest of the machine -/

/-- The frame of every command that does not reset (R22, R118 (c)): it writes CACC, TXS, TACC, CERR, ECODE and the
outputs at most, nothing of its own on the RX frame output, and once CERR is set it leaves CERR and ECODE alone. -/
structure CommandFrame (s t : State) : Prop where
  eq : t = { s with cacc := t.cacc, txs := t.txs, tacc := t.tacc, cerr := t.cerr, ecode := t.ecode, out := t.out }
  rxPort_eq : rxPort t.out = rxPort s.out
  firstError : s.cerr = true → t.cerr = true ∧ t.ecode = s.ecode

theorem CommandFrame.refl (s : State) : CommandFrame s s := ⟨rfl, rfl, fun h => ⟨h, rfl⟩⟩

theorem CommandFrame.config {s t : State} (h : CommandFrame s t) : t.config = s.config := by rw [h.eq]

theorem CommandFrame.inputs {s t : State} (h : CommandFrame s t) : t.inputs = s.inputs := by rw [h.eq]

theorem CommandFrame.fcnt {s t : State} (h : CommandFrame s t) : t.fcnt = s.fcnt := by rw [h.eq]

theorem raiseCmdError_commandFrame (e : CmdError) (s : State) : CommandFrame s (raiseCmdError e s) := by
  refine ⟨?_, by simp, fun h => by simp [h]⟩
  rw [raiseCmdError_eq]
  rfl

/-- Every host command but RESET keeps to the frame. -/
theorem exec_commandFrame (i : Instr) (s t : State) (hi : i.isHost = true) (hr : i ≠ .reset)
    (h : exec i s = .next t) : CommandFrame s t := by
  cases i with
  | nop => cases h; exact .refl s
  | crcInit | crcByte b => cases h; exact ⟨rfl, rfl, fun h => ⟨h, rfl⟩⟩
  | txStart =>
    cases hs : s.txs with
    | idle => rw [exec_txStart_idle s hs] at h; cases h; exact ⟨rfl, rfl, fun h => ⟨h, rfl⟩⟩
    | payload => rw [exec_txStart_payload s hs] at h; cases h; exact raiseCmdError_commandFrame _ s
  | txByte b =>
    cases hs : s.txs with
    | idle => rw [exec_txByte_idle b s hs] at h; cases h; exact raiseCmdError_commandFrame _ s
    | payload => rw [exec_txByte_payload b s hs] at h; cases h; exact ⟨rfl, by simp, fun h => ⟨h, rfl⟩⟩
  | txEnd =>
    cases hs : s.txs with
    | idle => rw [exec_txEnd_idle s hs] at h; cases h; exact raiseCmdError_commandFrame _ s
    | payload => rw [exec_txEnd_payload s hs] at h; cases h; exact ⟨rfl, by simp [rxPort], fun h => ⟨h, rfl⟩⟩
  | regRead n =>
    cases hn : regOfNumber n with
    | some r => rw [exec_regRead_some n r s hn] at h; cases h; exact ⟨rfl, by simp, fun h => ⟨h, rfl⟩⟩
    | none =>
      rw [exec_regRead_none n s hn] at h
      cases h
      obtain ⟨heq, -, herr⟩ := raiseCmdError_commandFrame .badReg { s with out := s.out ++ [.response 0] }
      exact ⟨heq, by simp, herr⟩
  | reset => exact absurd rfl hr
  | lineIdle | rxByte b | rxEof | rxByteEof b => simp [Instr.isHost, Instr.isLine] at hi

/-- Everything the command part of a cycle can do: reset, when its word is `RESET`, or keep to the frame. -/
theorem performCommand_cases (l : LineWord) (c : Option HostWord) (s t : State) (h : performCommand c s = .next t) :
    (resets (.cycle l c) = true ∧ t = applyReset s) ∨ (resets (.cycle l c) = false ∧ CommandFrame s t) := by
  cases c with
  | none => cases h; exact .inr ⟨rfl, .refl s⟩
  | some w =>
    cases hw : decodeHost w with
    | error e =>
      rw [performCommand_error w e s hw] at h
      cases h
      exact .inr ⟨by simp [resets, commandOf, hw], raiseCmdError_commandFrame e s⟩
    | ok i =>
      rw [performCommand_ok w i s hw] at h
      by_cases hr : i = .reset
      · subst hr; cases h; exact .inl ⟨by simp [resets, commandOf, hw], rfl⟩
      · exact .inr ⟨by simp [resets, commandOf, hw, hr], exec_commandFrame i s t (decodeHost_isHost w i hw) hr h⟩

/-! ### What a line event does -/

/-- `t` is `s` after `n` ends of frame, as FCNT and the RX frame output count them (R37, R96). -/
structure ClosesWindows (n : Nat) (s t : State) : Prop where
  finishes : (rxPort t.out).countP isFinish = (rxPort s.out).countP isFinish + n
  fcnt : t.fcnt = s.fcnt + BitVec.ofNat 16 n

theorem ClosesWindows.trans {m n : Nat} {s u t : State} (h₁ : ClosesWindows m s u) (h₂ : ClosesWindows n u t) :
    ClosesWindows (m + n) s t :=
  ⟨by rw [h₂.finishes, h₁.finishes, Nat.add_assoc], by rw [h₂.fcnt, h₁.fcnt, BitVec.ofNat_add, BitVec.add_assoc]⟩

theorem CommandFrame.closesWindows {s t : State} (h : CommandFrame s t) : ClosesWindows 0 s t :=
  ⟨by rw [h.rxPort_eq]; rfl, by simp [h.fcnt]⟩

theorem takeByte_closesWindows (b : Byte) (s : State) : ClosesWindows 0 s (takeByte b s) := by
  refine ⟨?_, by simp⟩
  rcases takeByte_cases b s with ⟨_, h⟩ | ⟨_, _, _, h⟩ | ⟨_, _, _, h⟩ | ⟨_, _, h⟩ <;> rw [h]
  · rfl
  · rfl
  · rfl
  · rcases holdPush_cases b { s with rraw := s.rraw + 1, rlen := s.rlen + 1 } with
      ⟨a, c, _, h⟩ | ⟨_, h⟩ | ⟨a, _, h⟩ <;> rw [h]
    · simp [isFinish]
    · rfl
    · rfl

theorem endOfFrame_closesWindows (s : State) : ClosesWindows 1 s (endOfFrame s) :=
  ⟨by simp [isFinish], by simp⟩

/-- A line event closes a window exactly when its word signals the end of frame. -/
theorem exec_decodeLine_closesWindows (l : LineWord) (s t : State) (h : exec (decodeLine l) s = .next t) :
    ClosesWindows (eofBit l).toNat s t := by
  unfold decodeLine at h
  split at h
  · next he _ => cases h; rw [he]; exact ⟨rfl, by simp⟩
  · next he _ => cases h; rw [he]; exact takeByte_closesWindows _ s
  · next he _ => cases h; rw [he]; exact endOfFrame_closesWindows s
  · next he _ => cases h; rw [he]; exact (takeByte_closesWindows _ s).trans (endOfFrame_closesWindows _)

/-- A line event leaves MAX_RAW, what is presented next, CERR and ECODE alone. -/
theorem exec_line_frame (i : Instr) (s t : State) (hi : i.isLine = true) (h : exec i s = .next t) :
    t.config = s.config ∧ t.inputs = s.inputs ∧ t.cerr = s.cerr ∧ t.ecode = s.ecode := by
  cases i with
  | lineIdle | rxByte b | rxEof | rxByteEof b => cases h; simp
  | nop | crcInit | crcByte b | txStart | txByte b | txEnd | regRead n | reset => simp [Instr.isLine] at hi

/-! ### What an input does -/

/-- Everything an input can do: reset, from a state with the same MAX_RAW and the same inputs to come, or perform its
line event and then a command that keeps to the frame. -/
theorem performInput_cases (i : Input) (s t : State) (h : performInput i s = .next t) :
    (resets i = true ∧ ∃ u : State, u.config = s.config ∧ u.inputs = s.inputs ∧ t = applyReset u) ∨
    (resets i = false ∧ ∃ l c u, i = .cycle l c ∧ exec (decodeLine l) s = .next u ∧ CommandFrame u t) := by
  cases i with
  | hardwareReset => cases h; exact .inl ⟨rfl, s, rfl, rfl, rfl⟩
  | cycle l c =>
    obtain ⟨u, t', hu, ht', hp⟩ := performInput_cycle_cases l c s
    obtain rfl : t' = t := by rw [hp] at h; injection h
    rcases performCommand_cases l c u t' ht' with ⟨hr, ht⟩ | ⟨hr, hf⟩
    · obtain ⟨hcfg, hin, -, -⟩ := exec_line_frame _ s u (decodeLine_isLine l) hu
      exact .inl ⟨hr, u, hcfg, hin, ht⟩
    · exact .inr ⟨hr, l, c, u, rfl, hu, hf⟩

theorem performInput_next (i : Input) (s : State) : ∃ t, performInput i s = .next t := by
  cases i with
  | hardwareReset => exact ⟨_, rfl⟩
  | cycle l c =>
    obtain ⟨_, t, _, _, ht⟩ := performInput_cycle_cases l c s
    exact ⟨t, ht⟩

theorem performInput_config (i : Input) (s t : State) (h : performInput i s = .next t) : t.config = s.config := by
  rcases performInput_cases i s t h with ⟨_, u, hcfg, _, rfl⟩ | ⟨_, l, _, u, _, hu, hf⟩
  · rw [applyReset_config, hcfg]
  · obtain ⟨hcfg, -, -, -⟩ := exec_line_frame _ s u (decodeLine_isLine l) hu
    rw [hf.config, hcfg]

theorem performInput_inputs (i : Input) (s t : State) (h : performInput i s = .next t) : t.inputs = s.inputs := by
  rcases performInput_cases i s t h with ⟨_, u, _, hin, rfl⟩ | ⟨_, l, _, u, _, hu, hf⟩
  · rw [applyReset_inputs, hin]
  · obtain ⟨-, hin, -, -⟩ := exec_line_frame _ s u (decodeLine_isLine l) hu
    rw [hf.inputs, hin]

/-- Settles O33: taking the input leaves MAX_RAW alone, and so does performing it, reset or not. -/
theorem maxRawIsConstant : Obligations.MaxRawIsConstant :=
  ⟨fun s t h => by rw [performInput_config _ _ t h, takeInput_config], fun _ => rfl, rfl⟩

/-! ### The first command error is kept -/

theorem performInput_keeps_firstError (i : Input) (s t : State) (hc : s.cerr = true) (hr : resets i = false)
    (h : performInput i s = .next t) : t.cerr = true ∧ t.ecode = s.ecode := by
  rcases performInput_cases i s t h with ⟨hr', _⟩ | ⟨_, l, _, u, _, hu, hf⟩
  · rw [hr] at hr'; contradiction
  · obtain ⟨-, -, hcerr, hecode⟩ := exec_line_frame _ s u (decodeLine_isLine l) hu
    rw [← hecode]
    exact hf.firstError (hcerr.trans hc)

theorem performInput_resets_clears_error (i : Input) (s : State) (hr : resets i = true) :
    ∃ t, performInput i s = .next t ∧ t.cerr = false ∧ t.ecode = none := by
  obtain ⟨t, ht⟩ := performInput_next i s
  rcases performInput_cases i s t ht with ⟨_, u, _, _, rfl⟩ | ⟨hr', _⟩
  · exact ⟨_, ht, rfl, rfl⟩
  · rw [hr] at hr'; contradiction

/-- Settles O29: a step that does not reset is a line event, which leaves CERR and ECODE alone, and a command that keeps
the first error. -/
theorem firstErrorIsKeptUntilReset : Obligations.FirstErrorIsKeptUntilReset := by
  refine ⟨rfl, raiseCmdError_cerr, fun s t hc hr h => ?_, fun s => performInput_resets_clears_error _ _⟩
  rw [← takeInput_ecode s]
  exact performInput_keeps_firstError _ _ t (by rw [takeInput_cerr, hc]) hr h

/-! ### Windows closed over a run -/

theorem performInput_closesWindows (i : Input) (s t : State) (hr : resets i = false) (h : performInput i s = .next t) :
    ClosesWindows (endsFrame i).toNat s t := by
  rcases performInput_cases i s t h with ⟨hr', _⟩ | ⟨_, l, c, u, rfl, hu, hf⟩
  · rw [hr] at hr'; contradiction
  · exact (exec_decodeLine_closesWindows l s u hu).trans hf.closesWindows

theorem runSteps_closesWindows (ins rest : List Input) (s : State) (hs : s.inputs = ins ++ rest)
    (hr : ∀ i ∈ ins, resets i = false) :
    ∃ t, runSteps ins.length s = .next t ∧ t.inputs = rest ∧ ClosesWindows (ins.countP endsFrame) s t := by
  induction ins generalizing s with
  | nil => exact ⟨s, rfl, hs, rfl, by simp⟩
  | cons i ins ih =>
    obtain ⟨hri, hrins⟩ := List.forall_mem_cons.mp hr
    obtain ⟨u, hu⟩ := performInput_next i { s with inputs := ins ++ rest }
    have hfirst : ClosesWindows (endsFrame i).toNat s u := by
      obtain ⟨hfin, hcnt⟩ := performInput_closesWindows i _ u hri hu
      exact ⟨hfin, hcnt⟩
    obtain ⟨t, hrun, hrest, hlater⟩ := ih u (performInput_inputs i _ u hu) hrins
    refine ⟨t, by rw [List.length_cons, runSteps_of_inputs_cons _ s u i _ hs hu, hrun], hrest, ?_⟩
    have hcount : (i :: ins).countP endsFrame = (endsFrame i).toNat + ins.countP endsFrame := by
      cases h : endsFrame i <;> simp [h, Nat.add_comm]
    rw [hcount]
    exact hfirst.trans hlater

/-- Settles O43, by induction on the inputs of the run. -/
theorem eachEndOfFrameClosesOneWindow : Obligations.EachEndOfFrameClosesOneWindow := by
  refine ⟨rfl, fun ins rest s hs hr => ?_⟩
  obtain ⟨t, hrun, hrest, hfin, hcnt⟩ := runSteps_closesWindows ins rest s hs hr
  exact ⟨t, hrun, hrest, hfin, hcnt⟩

end Sys2Proof.Machine
end

section
/-! PROOFS. Encoding (30_encoding.md): the two decoders and the rows of their maps, the census of the host words, the words
of the RX frame output, and the pseudo-instructions. -/

namespace Sys2Proof

/-! ### Rows of an opcode map -/

/-- A row's test of a word put together by appending is a test of each of its two parts. -/
theorem OpcodeRow.selects_append {n : Nat} (r : OpcodeRow) (f : BitVec n) (g : Byte) :
    r.selects (f ++ g).toNat =
      (f.toNat &&& (r.mask / 256) == r.pattern / 256 && g.toNat &&& (r.mask % 256) == r.pattern % 256) := by
  have hw : (f ++ g).toNat = 256 * f.toNat + g.toNat := by
    rw [BitVec.toNat_append, ← Nat.shiftLeft_add_eq_or_of_lt g.isLt, Nat.shiftLeft_eq, Nat.mul_comm]
  have hdiv : ((f ++ g).toNat &&& r.mask) / 256 = f.toNat &&& (r.mask / 256) := by
    rw [Nat.and_div_two_pow (n := 8), hw]; congr 1; omega
  have hmod : ((f ++ g).toNat &&& r.mask) % 256 = g.toNat &&& (r.mask % 256) := by
    rw [Nat.and_mod_two_pow (n := 8), hw]; congr 1; omega
  rw [OpcodeRow.selects, Bool.eq_iff_iff, Bool.and_eq_true, beq_iff_eq, beq_iff_eq, beq_iff_eq, ← hdiv, ← hmod]
  omega

/-- A mask that covers a whole field leaves it as it is. -/
theorem toNat_and_allOnes {n : Nat} (f : BitVec n) : f.toNat &&& (2 ^ n - 1) = f.toNat := by
  rw [Nat.and_two_pow_sub_one_eq_mod, Nat.mod_eq_of_lt f.isLt]

/-- A row of the host map tests OP, and OPD only where it must be zero (R64). -/
theorem selects_hostRows (op opd : Byte) (r : OpcodeRow) (hr : r ∈ hostRows) :
    r.selects (op ++ opd).toNat = (op.toNat == r.pattern / 256 && (r.mask % 256 == 0 || opd == 0)) := by
  have hop : op.toNat &&& 255 = op.toNat := toNat_and_allOnes op
  have hopd : opd.toNat &&& 255 = opd.toNat := toNat_and_allOnes opd
  simp only [hostRows, List.mem_cons, List.not_mem_nil, or_false] at hr
  rcases hr with rfl | rfl | rfl | rfl | rfl | rfl | rfl | rfl <;>
    simp [OpcodeRow.selects_append, hop, hopd, Bool.beq_eq_decide_eq, ← BitVec.toNat_inj]

/-- The rows a host word selects: the one of its command, and none for an illegal word. -/
theorem hostRows_selecting (w : HostWord) :
    (hostRows.filter fun r => r.selects w.toNat).map OpcodeRow.mnemonic =
      (decodeHost w).toOption.toList.map Instr.mnemonic := by
  rw [hostWord_eq_fields w]
  generalize opField w = op, opdField w = opd
  rw [List.filter_congr (selects_hostRows op opd), decodeHost_append]
  split
  case h_9 => simp_all [hostRows, Except.toOption]
  all_goals by_cases h0 : opd = 0#8 <;> simp [*, hostRows, mustBeZero, Except.toOption, Instr.mnemonic]

/-! ### The census of the host words (R65) -/

/-- The opcodes of the commands whose OPD must be zero (R64). -/
def mustBeZeroOps : Finset Byte := {0x00, 0x01, 0x10, 0x12, 0x30}

/-- The opcodes of the commands whose OPD is an operand (R64). -/
def operandOps : Finset Byte := {0x02, 0x11, 0x20}

theorem disjoint_mustBeZeroOps_operandOps : Disjoint mustBeZeroOps operandOps := by decide

theorem card_mustBeZeroOps : mustBeZeroOps.card = 5 := by decide

theorem card_operandOps : operandOps.card = 3 := by decide

theorem card_byte : Fintype.card Byte = 256 := FinEnum.card_eq_fintypeCard.symm.trans (FinEnum.card_bitVec 8)

theorem card_unassignedOps : (mustBeZeroOps ∪ operandOps)ᶜ.card = 248 := by
  rw [Finset.card_compl, card_byte, Finset.card_union_of_disjoint disjoint_mustBeZeroOps_operandOps, card_mustBeZeroOps,
    card_operandOps]

theorem mustBeZero_ok_iff (opd : Byte) (i : Instr) : (∃ j, mustBeZero opd i = .ok j) ↔ opd = 0 := by
  unfold mustBeZero; split <;> simp_all

theorem mustBeZero_badOperand_iff (opd : Byte) (i : Instr) : mustBeZero opd i = .error .badOperand ↔ opd ≠ 0 := by
  unfold mustBeZero; split <;> simp_all

theorem mustBeZero_ne_undefOp (opd : Byte) (i : Instr) : mustBeZero opd i ≠ .error .undefOp := by
  unfold mustBeZero; split <;> simp

/-- Everything `decode_H` can answer, by the class of the opcode. -/
theorem decodeHost_append_cases (op opd : Byte) :
    (op ∈ mustBeZeroOps ∧ op ∉ operandOps ∧ ∃ i, decodeHost (op ++ opd) = mustBeZero opd i) ∨
    (op ∉ mustBeZeroOps ∧ op ∈ operandOps ∧ ∃ i, decodeHost (op ++ opd) = .ok i) ∨
    (op ∉ mustBeZeroOps ∧ op ∉ operandOps ∧ decodeHost (op ++ opd) = .error .undefOp) := by
  rw [decodeHost_append]
  split
  case h_9 => simp_all [mustBeZeroOps, operandOps, ← BitVec.toNat_inj]
  all_goals simp [mustBeZeroOps, operandOps, *, ← BitVec.toNat_inj]

theorem decodeHost_append_ok_iff (op opd : Byte) :
    (∃ i, decodeHost (op ++ opd) = .ok i) ↔
      (op, opd) ∈ mustBeZeroOps ×ˢ {0} ∪ operandOps ×ˢ (Finset.univ : Finset Byte) := by
  rcases decodeHost_append_cases op opd with ⟨hz, ho, i, h⟩ | ⟨hz, ho, i, h⟩ | ⟨hz, ho, h⟩ <;> rw [h]
  · rw [mustBeZero_ok_iff, eq_comm]
    simp [hz, ho]
  · simp [ho]
  · simp [hz, ho]

theorem decodeHost_append_badOperand_iff (op opd : Byte) :
    decodeHost (op ++ opd) = .error .badOperand ↔ (op, opd) ∈ mustBeZeroOps ×ˢ ({0}ᶜ : Finset Byte) := by
  rcases decodeHost_append_cases op opd with ⟨hz, -, i, h⟩ | ⟨hz, -, i, h⟩ | ⟨hz, -, h⟩ <;> rw [h]
  · simp [hz, mustBeZero_badOperand_iff]
  · simp [hz]
  · simp [hz]

theorem decodeHost_append_undefOp_iff (op opd : Byte) :
    decodeHost (op ++ opd) = .error .undefOp ↔
      (op, opd) ∈ (mustBeZeroOps ∪ operandOps)ᶜ ×ˢ (Finset.univ : Finset Byte) := by
  rcases decodeHost_append_cases op opd with ⟨hz, -, i, h⟩ | ⟨-, ho, i, h⟩ | ⟨hz, ho, h⟩ <;> rw [h]
  · simp [hz, mustBeZero_ne_undefOp]
  · simp [ho]
  · simp [hz, ho]

/-- Host words are counted by their two fields. -/
theorem card_hostWords (p : HostWord → Prop) (s : Finset (Byte × Byte))
    (h : ∀ op opd, p (op ++ opd) ↔ (op, opd) ∈ s) : Nat.card { w : HostWord // p w } = s.card :=
  calc
    Nat.card { w : HostWord // p w } = Nat.card { f : Byte × Byte // p (f.1 ++ f.2) } :=
      Nat.card_congr
        { toFun w := ⟨(opField w, opdField w), by rw [← hostWord_eq_fields]; exact w.2⟩
          invFun f := ⟨f.1.1 ++ f.1.2, f.2⟩
          left_inv w := Subtype.ext (hostWord_eq_fields w).symm
          right_inv f := by simp }
    _ = s.card := Nat.subtype_card s fun f => (h f.1 f.2).symm

/-- `5 * 1 + 3 * 256`. -/
theorem card_legal_hostWords : Nat.card { w : HostWord // ∃ i, decodeHost w = .ok i } = 773 := by
  rw [card_hostWords _ _ decodeHost_append_ok_iff,
    Finset.card_union_of_disjoint (Finset.disjoint_product.mpr (.inl disjoint_mustBeZeroOps_operandOps))]
  simp [card_byte, card_mustBeZeroOps, card_operandOps]

/-- `5 * 255`. -/
theorem card_badOperand_hostWords : Nat.card { w : HostWord // decodeHost w = .error .badOperand } = 1275 := by
  rw [card_hostWords _ _ decodeHost_append_badOperand_iff]
  simp [Finset.card_compl, card_byte, card_mustBeZeroOps]

/-- `248 * 256`. -/
theorem card_undefOp_hostWords : Nat.card { w : HostWord // decodeHost w = .error .undefOp } = 63488 := by
  rw [card_hostWords _ _ decodeHost_append_undefOp_iff, Finset.card_product, card_unassignedOps, Finset.card_univ,
    card_byte]

/-- Settles O1: the decoder by opcode, the row of each word by its fields, and the census by the three classes of
opcodes. -/
theorem hostDecoderFollowsTheOpcodeMap : Obligations.HostDecoderFollowsTheOpcodeMap := by
  refine ⟨fun opd => ?byOpcode, fun op opd hop => ?undefOp, fun w i hi => ?selected, fun w e he => ?notSelected,
    card_legal_hostWords, card_badOperand_hostWords, card_undefOp_hostWords⟩
  case byOpcode => refine ⟨?_, ?_, ?_, ?_, ?_, ?_, ?_, ?_⟩ <;> exact decodeHost_append _ opd
  case undefOp =>
    rw [decodeHost_append_undefOp_iff]
    simp_all [mustBeZeroOps, operandOps]
  case selected => rw [hostRows_selecting, hi]; rfl
  case notSelected => rw [← List.map_eq_nil_iff, hostRows_selecting, he]; rfl

/-! ### Line words -/

@[simp] theorem eofBit_append (f : BitVec 2) (data : Byte) : eofBit (f ++ data) = f.getLsbD 1 := by
  rw [eofBit, BitVec.getLsbD_append]; rfl

@[simp] theorem validBit_append (f : BitVec 2) (data : Byte) : validBit (f ++ data) = f.getLsbD 0 := by
  rw [validBit, BitVec.getLsbD_append]; rfl

@[simp] theorem dataField_append (f : BitVec 2) (data : Byte) : dataField (f ++ data) = data :=
  BitVec.extractLsb'_append_eq_right

/-- A line word is its form and its data. -/
theorem lineWord_eq_fields (l : LineWord) : l = l.extractLsb' 8 2 ++ dataField l :=
  (BitVec.extractLsb'_append_extractLsb' (w := 2) (len := 8)).symm

theorem decodeLine_append (data : Byte) :
    decodeLine (0b00#2 ++ data) = .lineIdle ∧
    decodeLine (0b01#2 ++ data) = .rxByte data ∧
    decodeLine (0b10#2 ++ data) = .rxEof ∧
    decodeLine (0b11#2 ++ data) = .rxByteEof data := by
  simp [decodeLine]

/-- A row of the line map tests the two form bits and no bit of DATA (R67). -/
theorem selects_lineRows (f : BitVec 2) (data : Byte) (r : OpcodeRow) (hr : r ∈ lineRows) :
    r.selects (f ++ data).toNat = (f.toNat == r.pattern / 256) := by
  have hf : f.toNat &&& 3 = f.toNat := toNat_and_allOnes f
  simp only [lineRows, List.mem_cons, List.not_mem_nil, or_false] at hr
  rcases hr with rfl | rfl | rfl | rfl <;> simp [OpcodeRow.selects_append, hf]

theorem lineRows_selecting (l : LineWord) :
    (lineRows.filter fun r => r.selects l.toNat).map OpcodeRow.mnemonic = [(decodeLine l).mnemonic] := by
  rw [lineWord_eq_fields l]
  generalize l.extractLsb' 8 2 = f, dataField l = data
  rw [List.filter_congr (selects_lineRows f data)]
  obtain ⟨hidle, hbyte, heof, hbyteEof⟩ := decodeLine_append data
  have hform : f = 0b00#2 ∨ f = 0b01#2 ∨ f = 0b10#2 ∨ f = 0b11#2 := by revert f; decide
  rcases hform with rfl | rfl | rfl | rfl
  · rw [hidle]; rfl
  · rw [hbyte]; rfl
  · rw [heof]; rfl
  · rw [hbyteEof]; rfl

end Sys2Proof

namespace Sys2Proof.Machine

/-- A cycle reads of its line word only what it decodes to. -/
theorem cycle_congr_line {l₁ l₂ : LineWord} (h : decodeLine l₁ = decodeLine l₂) (c : Option HostWord) (s : State) :
    cycle l₁ c s = cycle l₂ c s := by
  simp only [cycle, performLine, h]

/-- Settles O2: a line word is decoded, and its row selected, by its two form bits; with VALID = 0 the decoder drops
DATA, and a cycle sees only what the decoder answers. -/
theorem lineDecoderIsTotalAndIgnoresUnusedData : Obligations.LineDecoderIsTotalAndIgnoresUnusedData := by
  refine ⟨decodeLine_append, lineRows_selecting, fun x y c s => ?_⟩
  obtain ⟨hidle, -, heof, -⟩ := decodeLine_append x
  obtain ⟨hidle', -, heof', -⟩ := decodeLine_append y
  exact ⟨cycle_congr_line (hidle.trans hidle'.symm) c s, cycle_congr_line (heof.trans heof'.symm) c s⟩

/-! ### The words of the RX frame output -/

theorem FrameEvent.byte_word_getLsbD (b : Byte) (i : Nat) : (FrameEvent.byte b).word.getLsbD i = b.getLsbD i := by
  rw [FrameEvent.word, BitVec.getLsbD_setWidth]
  grind

/-- The layout of FRAME_END: which field each bit belongs to, and which bit of that field it is (R69). -/
theorem FrameEvent.finish_word_getLsbD (v : Verdict) (ovf : Bool) (n : Word) (i : Nat) :
    (FrameEvent.finish v ovf n).word.getLsbD i =
      if i < 16 then n.getLsbD i
      else if i < 27 then false
      else if i = 27 then ovf
      else if i < 31 then v.code.getLsbD (i - 28)
      else decide (i = 31) := by
  by_cases hi : i < 32
  · unfold FrameEvent.word
    interval_cases i <;> simp [BitVec.getLsbD_of_ge]
  · rw [BitVec.getLsbD_of_ge _ _ (by omega)]
    grind

theorem FrameEvent.byte_word_fields (b : Byte) :
    (FrameEvent.byte b).word.getLsbD 31 = false ∧
    (FrameEvent.byte b).word.extractLsb' 8 23 = 0#23 ∧
    (FrameEvent.byte b).word.extractLsb' 0 8 = b := by
  refine ⟨?_, extractLsb'_eq_of_getLsbD _ _ _ fun i hi => ?_, extractLsb'_eq_of_getLsbD _ _ _ fun i hi => ?_⟩
  all_goals rw [FrameEvent.byte_word_getLsbD]; grind

theorem FrameEvent.finish_word_fields (v : Verdict) (ovf : Bool) (n : Word) :
    (FrameEvent.finish v ovf n).word.getLsbD 31 = true ∧
    (FrameEvent.finish v ovf n).word.extractLsb' 28 3 = v.code ∧
    (FrameEvent.finish v ovf n).word.getLsbD 27 = ovf ∧
    (FrameEvent.finish v ovf n).word.extractLsb' 16 11 = 0 ∧
    (FrameEvent.finish v ovf n).word.extractLsb' 0 16 = n := by
  refine ⟨?_, extractLsb'_eq_of_getLsbD _ _ _ fun i hi => ?_, ?_, extractLsb'_eq_of_getLsbD _ _ _ fun i hi => ?_,
    extractLsb'_eq_of_getLsbD _ _ _ fun i hi => ?_⟩
  all_goals rw [FrameEvent.finish_word_getLsbD]; grind

theorem verdictOfCode_code (v : Verdict) : verdictOfCode v.code = some v := by cases v <;> rfl

/-- The consumer's decoder is a left inverse of the layout. -/
theorem frameEventOfWord_word (e : FrameEvent) : frameEventOfWord e.word = some e := by
  cases e with
  | byte b =>
    obtain ⟨hend, hzero, hb⟩ := FrameEvent.byte_word_fields b
    simp only [frameEventOfWord, hend, hzero, hb, Bool.false_eq_true, reduceIte]
  | finish v ovf n =>
    obtain ⟨hend, hv, hovf, hzero, hn⟩ := FrameEvent.finish_word_fields v ovf n
    simp only [frameEventOfWord, hend, hv, hovf, hzero, hn, verdictOfCode_code, reduceIte]
    rfl

/-- Settles O6: the fields are read off the layout of the word, bit by bit. -/
theorem frameWordLayout : Obligations.FrameWordLayout :=
  ⟨fun _ => rfl, FrameEvent.finish_word_fields, frameEventOfWord_word⟩

/-! ### Cycles that present one host command -/

theorem commandWord_decodes (i : Instr) (hi : i.isHost = true) :
    ∃ w, commandWord i = some w ∧ decodeHost w = .ok i := by
  cases i with
  | nop | crcInit | txStart | txEnd | reset => exact ⟨_, rfl, decodeHost_append _ 0⟩
  | crcByte b | txByte b | regRead b => exact ⟨_, rfl, decodeHost_append _ b⟩
  | lineIdle | rxByte b | rxEof | rxByteEof b => simp [Instr.isHost, Instr.isLine] at hi

/-- A cycle that presents a host command alone performs that command. -/
theorem performInput_hostCycle (i : Instr) (hi : i.isHost = true) (s : State) :
    performInput (hostCycle i) s = exec i s := by
  obtain ⟨w, hw, hdec⟩ := commandWord_decodes i hi
  have hidle : decodeLine 0x000 = .lineIdle := rfl
  rw [hostCycle, hw, performInput_cycle, hidle, exec_lineIdle, andThen_next, performCommand_ok w i s hdec]

/-! ### CRCBLOCK -/

theorem runSteps_crcBytes (d : List Byte) (rest : List Input) (s : State)
    (hs : s.inputs = (d.map fun b => hostCycle (.crcByte b)) ++ rest) :
    runSteps d.length s = .next { s with cacc := crcFold s.cacc d, inputs := rest } := by
  induction d generalizing s with
  | nil => subst hs; rfl
  | cons b d ih =>
    rw [List.length_cons, runSteps_of_inputs_cons _ s _ _ _ hs (performInput_hostCycle _ rfl _), ih _ rfl, crcFold_cons]

theorem runSteps_crcBlock (d : List Byte) (rest : List Input) (s : State) (hs : s.inputs = crcBlock d ++ rest) :
    runSteps (d.length + 1) s = .next { s with cacc := crc16 d, inputs := rest } := by
  rw [runSteps_of_inputs_cons _ s _ _ _ hs (performInput_hostCycle _ rfl _), runSteps_crcBytes d rest _ rfl]
  rfl

/-- Settles O47, by induction on the bytes of the block. -/
theorem crcBlockComputesTheCrc : Obligations.CrcBlockComputesTheCrc := by
  intro d rest s hs
  have hlen : (crcBlock d).length = d.length + 1 := by simp [crcBlock]
  exact ⟨rfl, hlen, by rw [hlen]; exact runSteps_crcBlock d rest s hs⟩

/-! ### Worked examples and the other pseudo-instructions -/

/-- Settles O5: each word is encoded and decoded as R80 writes it. -/
theorem encodingWorkedExamples : Obligations.EncodingWorkedExamples := by
  unfold Obligations.EncodingWorkedExamples
  decide

theorem lineCycle_rxByte (b : Byte) : lineCycle (.rxByte b) = .cycle (0b01#2 ++ b) none :=
  congrArg (Input.cycle · none) (BitVec.append_assoc (x₁ := 0#1) (x₂ := 1#1) (x₃ := b)).symm

theorem rxBytes_words (d : List Byte) : rxBytes d = d.map fun b => .cycle (0b01#2 ++ b) none :=
  List.map_congr_left fun b _ => lineCycle_rxByte b

/-- Settles O46: the words come out of the encoder, and the text of R75's example is read token by token. -/
theorem pseudoInstructionsExpand : Obligations.PseudoInstructionsExpand := by
  refine ⟨fun d => ⟨rfl, rxBytes_words d, ?_⟩, rfl, by decide +kernel⟩
  rw [rxFrame, rxBytes_words]
  rfl

end Sys2Proof.Machine
end

section
/-! PROOFS. The CRC (40_crc.md): the byte-update function as a loop, its linearity and its table form, the fold over a
byte list, and CRC_INIT. -/

namespace Sys2Proof.Machine

/-! ### The iterations -/

/-- The bit test of R81, as the rule writes it. -/
theorem crcShift_eq (a : Word) : crcShift a = if a &&& 1 = 1 then (a >>> 1) ^^^ 0xA001 else a >>> 1 := by
  have hand : a &&& 1 = if a.getLsbD 0 then 1 else 0 := BitVec.and_twoPow a 0
  rw [crcShift, hand]
  cases a.getLsbD 0 <;> rfl

theorem crcShifts_eq_iterate (n : Nat) (a : Word) : crcShifts n a = crcShift^[n] a := by
  induction n generalizing a with
  | zero => rfl
  | succ n ih => exact ih (crcShift a)

theorem crcShifts_xor (n : Nat) (a b : Word) : crcShifts n (a ^^^ b) = crcShifts n a ^^^ crcShifts n b := by
  induction n generalizing a b with
  | zero => rfl
  | succ n ih => rw [crcShifts_succ, crcShift_xor, ih, ← crcShifts_succ, ← crcShifts_succ]

/-- While the bits shifted out are 0, the iterations are shifts. -/
theorem crcShifts_eq_shift (n : Nat) (a : Word) (h : ∀ i < n, a.getLsbD i = false) : crcShifts n a = a >>> n := by
  induction n generalizing a with
  | zero => simp
  | succ n ih =>
    have hfirst : crcShift a = a >>> 1 := by rw [crcShift, h 0 n.succ_pos]; rfl
    have hrest : ∀ i < n, (a >>> 1).getLsbD i = false := fun i hi => by
      rw [BitVec.getLsbD_ushiftRight]
      exact h (1 + i) (by omega)
    rw [crcShifts_succ, hfirst, ih _ hrest, ← BitVec.shiftRight_add, Nat.add_comm]

/-! ### The byte-update function -/

/-- Settles O12: the iterations of `crcShift` are the rule's loop. -/
theorem crcStepFollowsTheLoop : Obligations.CrcStepFollowsTheLoop := by
  refine ⟨fun acc b => ?_, by decide +kernel⟩
  rw [crcStep, crcShifts_eq_iterate, funext crcShift_eq]

theorem crcStep_xor (a₁ a₂ : Word) (b₁ b₂ : Byte) :
    crcStep (a₁ ^^^ a₂) (b₁ ^^^ b₂) = crcStep a₁ b₁ ^^^ crcStep a₂ b₂ := by
  simp only [crcStep, ← crcShifts_xor]
  congr 1
  rw [BitVec.setWidth_xor]
  ac_rfl

/-- Eight iterations on a word whose low byte is 0 only shift its high byte down. -/
theorem crcShifts_highByte (a : Word) : crcShifts 8 (a >>> 8 <<< 8) = a >>> 8 := by
  have hlow : ∀ i < 8, (a >>> 8 <<< 8).getLsbD i = false := fun i hi => by simp [hi]
  rw [crcShifts_eq_shift 8 _ hlow]
  ext i hi
  grind

/-- An accumulator is its high byte and its low byte. -/
theorem word_eq_highByte_xor_lowByte (a : Word) : a = a >>> 8 <<< 8 ^^^ (a.setWidth 8).setWidth 16 := by
  ext i hi
  grind

/-- The table form (R83): the high byte is shifted down, and the low byte with the input selects the table's entry. -/
theorem crcStep_eq_table (acc : Word) (b : Byte) : crcStep acc b = (acc >>> 8) ^^^ crcStep 0 (acc.setWidth 8 ^^^ b) := by
  have hsplit : acc ^^^ b.setWidth 16 = acc >>> 8 <<< 8 ^^^ (acc.setWidth 8 ^^^ b).setWidth 16 := by
    rw [BitVec.setWidth_xor, ← BitVec.xor_assoc, ← word_eq_highByte_xor_lowByte]
  rw [crcStep, hsplit, crcShifts_xor, crcShifts_highByte, crcStep, BitVec.ofNat_eq_ofNat, BitVec.zero_xor]

/-- Settles O14: each iteration distributes over exclusive-or, and the table form follows by splitting the accumulator
into its two bytes. -/
theorem crcStepIsLinear : Obligations.CrcStepIsLinear :=
  ⟨crcStep_xor, by decide, crcStep_eq_table⟩

/-- Settles O13: a fold over a concatenation continues. -/
theorem crcOfConcatenationContinues : Obligations.CrcOfConcatenationContinues :=
  ⟨fun _ => rfl, crc16_nil, crcFold_append crcInitial, by decide +kernel⟩

/-! ### CRC_INIT -/

/-- An opcode that takes no operand, presented with a nonzero one, only records BAD_OPERAND (R65, R120). -/
theorem performCommand_nonzeroOperand {op opd : Byte} {i : Instr} (hop : decodeHost (op ++ opd) = mustBeZero opd i)
    (h : opd ≠ 0) (s : State) : performCommand (some (op ++ opd)) s = .next (withFirstError .badOperand s) := by
  rw [performCommand_error _ _ s (hop.trans (mustBeZero_nonzero opd i h)), raiseCmdError_eq]

/-- Settles O16: the decoder's row of opcode 0x01, and what CRC_INIT writes. -/
theorem crcInitSetsTheAccumulator : Obligations.CrcInitSetsTheAccumulator :=
  ⟨decodeHost_append 0x01 0x00, exec_crcInit, fun opd s h => performCommand_nonzeroOperand (decodeHost_append 0x01 opd) h s⟩

end Sys2Proof.Machine
end

section
/-! PROOFS. The frame generator (41_generator.md): its three commands, the frame it puts on the TX output whatever is
interleaved, and its independence of the framer. -/

namespace Sys2Proof.Machine

/-! ### The three commands -/

/-- Settles O18: the row of opcode 0x10, and what TX_START does in each state of TXS. -/
theorem txStartOpensAFrame : Obligations.TxStartOpensAFrame :=
  ⟨decodeHost_append 0x10 0x00, exec_txStart_idle, fun s h => by rw [exec_txStart_payload s h, raiseCmdError_eq],
    fun opd s h => performCommand_nonzeroOperand (decodeHost_append 0x10 opd) h s⟩

/-- Settles O19: the row of opcode 0x11, and what TX_BYTE does in each state of TXS. -/
theorem txByteEmitsAndAccumulates : Obligations.TxByteEmitsAndAccumulates :=
  ⟨decodeHost_append 0x11, exec_txByte_payload, fun b s h => by rw [exec_txByte_idle b s h, raiseCmdError_eq]⟩

/-- Settles O20: the row of opcode 0x12, and what TX_END does in each state of TXS. -/
theorem txEndAppendsTheCheckField : Obligations.TxEndAppendsTheCheckField :=
  ⟨decodeHost_append 0x12 0x00, exec_txEnd_payload, fun s h => by rw [exec_txEnd_idle s h, raiseCmdError_eq],
    fun opd s h => performCommand_nonzeroOperand (decodeHost_append 0x12 opd) h s⟩

/-! ### The generator as a machine of its own -/

/-- The generator's own part of the state, TXS and TACC (R24, R25). -/
structure Generator where
  txs : TxState
  tacc : Word

def generatorOf (s : State) : Generator := ⟨s.txs, s.tacc⟩

/-- The generator after an instruction, any instruction: only TX_START, TX_BYTE, TX_END and RESET reach it. -/
def Generator.next (g : Generator) (i : Instr) : Generator :=
  match i, g.txs with
  | .txStart, .idle => ⟨.payload, 0xFFFF⟩
  | .txByte b, .payload => ⟨.payload, crcStep g.tacc b⟩
  | .txEnd, .payload => ⟨.idle, g.tacc⟩
  | .reset, _ => ⟨.idle, 0xFFFF⟩
  | _, _ => g

/-- What an instruction makes the generator put on the TX output. -/
def Generator.sends (g : Generator) (i : Instr) : List Byte :=
  match i, g.txs with
  | .txByte b, .payload => [b]
  | .txEnd, .payload => [lowByte g.tacc, highByte g.tacc]
  | _, _ => []

/-- TX_START, TX_BYTE or TX_END (R89 to R91). -/
abbrev IsGeneratorCommand (i : Instr) : Prop := i = .txStart ∨ (∃ b, i = .txByte b) ∨ i = .txEnd

theorem generatorOf_eq_iff (s t : State) : generatorOf s = generatorOf t ↔ SameGenerator s t := by
  simp [generatorOf, SameGenerator]

@[simp] theorem generatorOf_raiseCmdError (e : CmdError) (s : State) :
    generatorOf (raiseCmdError e s) = generatorOf s := by
  simp [generatorOf]

/-- Each generator command does to TXS, TACC and the outputs what the generator alone says, SEQ errors included. -/
theorem exec_generatorCommand (i : Instr) (s : State) (hi : IsGeneratorCommand i) :
    ∃ t, exec i s = .next t ∧ generatorOf t = (generatorOf s).next i ∧
      t.out = s.out ++ ((generatorOf s).sends i).map .tx := by
  unfold generatorOf Generator.next Generator.sends
  rcases hi with rfl | ⟨b, rfl⟩ | rfl <;> cases hs : s.txs
  case inl.idle => exact ⟨_, exec_txStart_idle s hs, by simp⟩
  case inl.payload => exact ⟨_, exec_txStart_payload s hs, by simp [hs]⟩
  case inr.inl.idle => exact ⟨_, exec_txByte_idle b s hs, by simp [hs]⟩
  case inr.inl.payload => exact ⟨_, exec_txByte_payload b s hs, by simp [hs]⟩
  case inr.inr.idle => exact ⟨_, exec_txEnd_idle s hs, by simp [hs]⟩
  case inr.inr.payload => exact ⟨_, exec_txEnd_payload s hs, by simp⟩

/-- The generator together with everything put on the TX output so far. -/
def txSide (s : State) : Generator × List Byte := (generatorOf s, txPort s.out)

/-- One instruction, seen from the TX side. -/
def performTx (p : Generator × List Byte) (i : Instr) : Generator × List Byte :=
  (p.1.next i, p.2 ++ p.1.sends i)

@[simp] theorem txPort_map_tx (bs : List Byte) : txPort (bs.map .tx) = bs := by
  simp [txPort, List.filterMap_map]

theorem performTx_line (p : Generator × List Byte) (i : Instr) (hi : i.isLine = true) : performTx p i = p := by
  cases i with
  | lineIdle | rxByte b | rxEof | rxByteEof b => exact congrArg (Prod.mk p.1) (List.append_nil p.2)
  | nop | crcInit | crcByte b | txStart | txByte b | txEnd | regRead n | reset => simp [Instr.isLine] at hi

theorem txSide_takeByte (b : Byte) (s : State) : txSide (takeByte b s) = txSide s := by
  obtain ⟨es, hout, -⟩ := takeByte_out b s
  simp [txSide, generatorOf, hout]

theorem txSide_endOfFrame (s : State) : txSide (endOfFrame s) = txSide s := by
  simp [txSide, generatorOf]

theorem txSide_raiseCmdError (e : CmdError) (s : State) : txSide (raiseCmdError e s) = txSide s := by
  simp [txSide]

theorem txSide_respond (w : Word) (s : State) : txSide { s with out := s.out ++ [.response w] } = txSide s := by
  simp [txSide, generatorOf]

theorem exec_generatorCommand_txSide (i : Instr) (s t : State) (hi : IsGeneratorCommand i) (h : exec i s = .next t) :
    txSide t = performTx (txSide s) i := by
  obtain ⟨t', ht', hgen, hout⟩ := exec_generatorCommand i s hi
  obtain rfl : t' = t := by rw [ht'] at h; injection h
  rw [txSide, hgen, hout, txPort_append, txPort_map_tx]
  rfl

/-- The TX side runs on its own: whatever the instruction, what it does there depends on the TX side alone. -/
theorem exec_txSide (i : Instr) (s t : State) (h : exec i s = .next t) : txSide t = performTx (txSide s) i := by
  cases i with
  | txStart => exact exec_generatorCommand_txSide _ s t (.inl rfl) h
  | txByte b => exact exec_generatorCommand_txSide _ s t (.inr (.inl ⟨b, rfl⟩)) h
  | txEnd => exact exec_generatorCommand_txSide _ s t (.inr (.inr rfl)) h
  | nop | crcInit | crcByte b | reset =>
    cases h
    simp [txSide, performTx, generatorOf, Generator.next, Generator.sends]
  | regRead n =>
    have hquiet : performTx (txSide s) (.regRead n) = txSide s := by simp [performTx, Generator.next, Generator.sends]
    cases hn : regOfNumber n with
    | some r => rw [exec_regRead_some n r s hn] at h; cases h; rw [hquiet, txSide_respond]
    | none => rw [exec_regRead_none n s hn] at h; cases h; rw [hquiet, txSide_raiseCmdError, txSide_respond]
  | lineIdle => cases h; rw [performTx_line _ _ rfl]
  | rxByte b => cases h; rw [performTx_line _ _ rfl, txSide_takeByte]
  | rxEof => cases h; rw [performTx_line _ _ rfl, txSide_endOfFrame]
  | rxByteEof b => cases h; rw [performTx_line _ _ rfl, txSide_endOfFrame, txSide_takeByte]

/-! ### Runs, seen from the TX side -/

/-- Commands that are no generator commands are invisible on the TX side. -/
theorem performTx_generatorCommand (p : Generator × List Byte) (i : Input) :
    (generatorCommand i).toList.foldl performTx p = (commandOf i).toList.foldl performTx p := by
  unfold generatorCommand
  cases commandOf i with
  | none => rfl
  | some j => cases j <;> simp [performTx, Generator.next, Generator.sends]

theorem performCommand_txSide (l : LineWord) (c : Option HostWord) (s t : State) (h : performCommand c s = .next t) :
    txSide t = (commandOf (.cycle l c)).toList.foldl performTx (txSide s) := by
  cases c with
  | none => cases h; rfl
  | some w =>
    cases hw : decodeHost w with
    | error e =>
      rw [performCommand_error w e s hw] at h
      cases h
      simp [commandOf, hw, txSide_raiseCmdError]
    | ok i =>
      rw [performCommand_ok w i s hw] at h
      simp [commandOf, hw, exec_txSide i s t h]

/-- Of a cycle, the TX side sees the generator command, if there is one. -/
theorem performInput_txSide (i : Input) (s t : State) (hi : i ≠ .hardwareReset) (h : performInput i s = .next t) :
    txSide t = (generatorCommand i).toList.foldl performTx (txSide s) := by
  cases i with
  | hardwareReset => contradiction
  | cycle l c =>
    obtain ⟨u, t', hu, ht', hp⟩ := performInput_cycle_cases l c s
    obtain rfl : t' = t := by rw [hp] at h; injection h
    rw [performTx_generatorCommand, performCommand_txSide l c u t' ht', exec_txSide _ s u hu,
      performTx_line _ _ (decodeLine_isLine l)]

/-- Of a run, the TX side sees the generator commands, in order. -/
theorem runSteps_txSide (ins rest : List Input) (s : State) (hs : s.inputs = ins ++ rest)
    (hr : ∀ i ∈ ins, i ≠ .hardwareReset) :
    ∃ t, runSteps ins.length s = .next t ∧ t.inputs = rest ∧
      txSide t = (ins.filterMap generatorCommand).foldl performTx (txSide s) := by
  induction ins generalizing s with
  | nil => exact ⟨s, rfl, hs, rfl⟩
  | cons i ins ih =>
    obtain ⟨hri, hrins⟩ := List.forall_mem_cons.mp hr
    obtain ⟨u, hu⟩ := performInput_next i { s with inputs := ins ++ rest }
    obtain ⟨t, hrun, hrest, hlater⟩ := ih u (performInput_inputs i _ u hu) hrins
    refine ⟨t, by rw [List.length_cons, runSteps_of_inputs_cons _ s u i _ hs hu, hrun], hrest, ?_⟩
    have hfirst : txSide u = (generatorCommand i).toList.foldl performTx (txSide s) :=
      performInput_txSide i { s with inputs := ins ++ rest } u hri hu
    rw [hlater, hfirst, ← List.foldl_append, List.filterMap_cons]
    cases generatorCommand i <;> rfl

/-! ### TXFRAME -/

theorem performTx_txBytes (d sent : List Byte) (a : Word) :
    (d.map Instr.txByte).foldl performTx (⟨.payload, a⟩, sent) = (⟨.payload, crcFold a d⟩, sent ++ d) := by
  induction d generalizing a sent with
  | nil => simp
  | cons b d ih =>
    have hbyte : performTx (⟨.payload, a⟩, sent) (.txByte b) = (⟨.payload, crcStep a b⟩, sent ++ [b]) := rfl
    rw [List.map_cons, List.foldl_cons, hbyte, ih, crcFold_cons, List.append_assoc, List.singleton_append]

/-- The commands of `TXFRAME d` on an idle generator put `encode(d)` on the TX output (R92). -/
theorem performTx_txFrame (d sent : List Byte) (a : Word) :
    (Instr.txStart :: d.map .txByte ++ [Instr.txEnd]).foldl performTx (⟨.idle, a⟩, sent) =
      (⟨.idle, crc16 d⟩, sent ++ encodeFrame d) := by
  have hstart : performTx (⟨.idle, a⟩, sent) .txStart = (⟨.payload, crcInitial⟩, sent) := by
    simp [performTx, Generator.next, Generator.sends, crcInitial]
  have hend : performTx (⟨.payload, crc16 d⟩, sent ++ d) .txEnd =
      (⟨.idle, crc16 d⟩, sent ++ d ++ [lowByte (crc16 d), highByte (crc16 d)]) := rfl
  have hbytes : (d.map Instr.txByte).foldl performTx (⟨.payload, crcInitial⟩, sent) =
      (⟨.payload, crc16 d⟩, sent ++ d) := performTx_txBytes d sent crcInitial
  simp only [List.foldl_append, List.foldl_cons, List.foldl_nil, hstart, hbytes, hend]
  rw [encodeFrame, List.append_assoc]

theorem commandOf_hostCycle (i : Instr) (hi : i.isHost = true) : commandOf (hostCycle i) = some i := by
  obtain ⟨w, hw, hdec⟩ := commandWord_decodes i hi
  simp [hostCycle, hw, commandOf, hdec]

theorem generatorCommand_hostCycle (i : Instr) (hi : IsGeneratorCommand i) :
    generatorCommand (hostCycle i) = some i := by
  rcases hi with rfl | ⟨b, rfl⟩ | rfl <;> rw [generatorCommand, commandOf_hostCycle _ rfl]

theorem txFrame_generatorCommands (d : List Byte) :
    (txFrame d).filterMap generatorCommand = .txStart :: d.map .txByte ++ [.txEnd] := by
  have hbyte (b : Byte) : generatorCommand (hostCycle (.txByte b)) = some (.txByte b) :=
    generatorCommand_hostCycle _ (.inr (.inl ⟨b, rfl⟩))
  have hstart := generatorCommand_hostCycle .txStart (.inl rfl)
  have hend := generatorCommand_hostCycle .txEnd (.inr (.inr rfl))
  simp [txFrame, hstart, hbyte, hend, List.filterMap_map]

/-- Settles O21: the TX side of a run is a machine of its own that sees only the generator commands, and on those of
`TXFRAME d` it puts out `encode(d)`. -/
theorem generatedFrameIsEncodeOfThePayload : Obligations.GeneratedFrameIsEncodeOfThePayload := by
  refine ⟨fun d ins rest s hs hr hidle hcmds => ?run, fun d => ⟨?length, ?noReset, txFrame_generatorCommands d⟩⟩
  case run =>
    obtain ⟨t, hrun, hrest, htx⟩ := runSteps_txSide ins rest s hs hr
    have hside : txSide s = (⟨.idle, s.tacc⟩, txPort s.out) := by rw [← hidle]; rfl
    rw [hcmds, hside, performTx_txFrame] at htx
    obtain ⟨hgen, hport⟩ := Prod.mk.inj htx
    obtain ⟨htxs, htacc⟩ := Generator.mk.inj hgen
    exact ⟨t, hrun, hrest, by rw [hport, encodeFrame, ← List.append_assoc]; rfl, htxs, htacc⟩
  case length => simp [txFrame]
  case noReset => simp +contextual [txFrame, hostCycle, or_imp]

/-! ### No coupling with the framer (R94) -/

theorem CommandFrame.sameFramer {s t : State} (h : CommandFrame s t) : SameFramer s t := by
  rw [h.eq]
  exact ⟨rfl, rfl, rfl, rfl, rfl, rfl, rfl⟩

/-- A generator command leaves the framer alone. -/
theorem exec_generatorCommand_sameFramer (i : Instr) (s t : State) (hi : IsGeneratorCommand i)
    (h : exec i s = .next t) : SameFramer s t := by
  obtain ⟨hhost, hreset⟩ : i.isHost = true ∧ i ≠ .reset := by
    rcases hi with rfl | ⟨b, rfl⟩ | rfl <;> exact ⟨rfl, nofun⟩
  exact (exec_commandFrame i s t hhost hreset h).sameFramer

/-- `t₁` and `t₂` have the same framer, and the same events have been emitted on the way from `s₁` and from `s₂`. -/
structure SameFraming (s₁ s₂ t₁ t₂ : State) : Prop where
  framer : SameFramer t₁ t₂
  events : ∃ es, t₁.out = s₁.out ++ es ∧ t₂.out = s₂.out ++ es

theorem SameFraming.trans {s₁ s₂ u₁ u₂ t₁ t₂ : State} (h : SameFraming s₁ s₂ u₁ u₂) (h' : SameFraming u₁ u₂ t₁ t₂) :
    SameFraming s₁ s₂ t₁ t₂ := by
  obtain ⟨es, h₁, h₂⟩ := h.events
  obtain ⟨es', h₁', h₂'⟩ := h'.events
  exact ⟨h'.framer, es ++ es', by rw [h₁', h₁, List.append_assoc], by rw [h₂', h₂, List.append_assoc]⟩

/-- A step that emits nothing. -/
theorem SameFraming.silent {s₁ s₂ t₁ t₂ : State} (h : SameFramer t₁ t₂) (h₁ : t₁.out = s₁.out) (h₂ : t₂.out = s₂.out) :
    SameFraming s₁ s₂ t₁ t₂ :=
  ⟨h, [], by simp [h₁, h₂]⟩

theorem holdPush_sameFraming (b : Byte) {s₁ s₂ : State} (h : SameFramer s₁ s₂) :
    SameFraming s₁ s₂ (holdPush b s₁) (holdPush b s₂) := by
  obtain ⟨hcfg, hrxs, hracc, hhold, hrlen, hrraw, hrovf⟩ := h
  unfold holdPush
  rw [← hhold]
  cases s₁.hold with
  | empty | one a => exact .silent ⟨hcfg, hrxs, hracc, rfl, hrlen, hrraw, hrovf⟩ rfl rfl
  | two a c => exact ⟨⟨hcfg, hrxs, congrArg (crcStep · a) hracc, rfl, hrlen, hrraw, hrovf⟩, _, rfl, rfl⟩

theorem huntByte_sameFraming (b : Byte) {s₁ s₂ : State} (h : SameFramer s₁ s₂) :
    SameFraming s₁ s₂ (huntByte b s₁) (huntByte b s₂) := by
  have ⟨hcfg, _, hracc, _, _, hrraw, hrovf⟩ := h
  unfold huntByte
  split
  · exact .silent h rfl rfl
  · exact .silent ⟨hcfg, rfl, hracc, rfl, rfl, hrraw, hrovf⟩ rfl rfl

theorem frameByte_sameFraming (b : Byte) {s₁ s₂ : State} (h : SameFramer s₁ s₂) :
    SameFraming s₁ s₂ (frameByte b s₁) (frameByte b s₂) := by
  obtain ⟨hcfg, hrxs, hracc, hhold, hrlen, hrraw, hrovf⟩ := h
  have hcounted : SameFraming s₁ s₂ { s₁ with rlen := s₁.rlen + 1 } { s₂ with rlen := s₂.rlen + 1 } :=
    .silent ⟨hcfg, hrxs, hracc, hhold, congrArg (· + 1) hrlen, hrraw, hrovf⟩ rfl rfl
  exact hcounted.trans (holdPush_sameFraming b hcounted.framer)

theorem takeByte_full (b : Byte) (s : State) (h : s.rraw = s.config.maxRaw) : takeByte b s = { s with rovf := true } :=
  if_pos h

theorem takeByte_hunt (b : Byte) (s : State) (h : s.rraw ≠ s.config.maxRaw) (hx : s.rxs = .hunt) :
    takeByte b s = huntByte b { s with rraw := s.rraw + 1 } := by
  rw [takeByte, if_neg h]
  split
  · rfl
  · simp_all

theorem takeByte_frame (b : Byte) (s : State) (h : s.rraw ≠ s.config.maxRaw) (hx : s.rxs = .frame) :
    takeByte b s = frameByte b { s with rraw := s.rraw + 1 } := by
  rw [takeByte, if_neg h]
  split
  · simp_all
  · rfl

/-- Both states take the same branch of R98. -/
theorem takeByte_sameFraming (b : Byte) {s₁ s₂ : State} (h : SameFramer s₁ s₂) :
    SameFraming s₁ s₂ (takeByte b s₁) (takeByte b s₂) := by
  obtain ⟨hcfg, hrxs, hracc, hhold, hrlen, hrraw, hrovf⟩ := h
  have hcounted : SameFraming s₁ s₂ { s₁ with rraw := s₁.rraw + 1 } { s₂ with rraw := s₂.rraw + 1 } :=
    .silent ⟨hcfg, hrxs, hracc, hhold, hrlen, congrArg (· + 1) hrraw, hrovf⟩ rfl rfl
  by_cases hfull : s₁.rraw = s₁.config.maxRaw
  · have hfull₂ : s₂.rraw = s₂.config.maxRaw := by rw [← hrraw, ← hcfg, hfull]
    rw [takeByte_full b s₁ hfull, takeByte_full b s₂ hfull₂]
    exact .silent ⟨hcfg, hrxs, hracc, hhold, hrlen, hrraw, rfl⟩ rfl rfl
  · have hroom₂ : s₂.rraw ≠ s₂.config.maxRaw := by rwa [← hrraw, ← hcfg]
    cases hx : s₁.rxs with
    | hunt =>
      rw [takeByte_hunt b s₁ hfull hx, takeByte_hunt b s₂ hroom₂ (hrxs.symm.trans hx)]
      exact hcounted.trans (huntByte_sameFraming b hcounted.framer)
    | frame =>
      rw [takeByte_frame b s₁ hfull hx, takeByte_frame b s₂ hroom₂ (hrxs.symm.trans hx)]
      exact hcounted.trans (frameByte_sameFraming b hcounted.framer)

theorem endOfFrame_sameFraming {s₁ s₂ : State} (h : SameFramer s₁ s₂) :
    SameFraming s₁ s₂ (endOfFrame s₁) (endOfFrame s₂) := by
  obtain ⟨hcfg, -, hracc, hhold, hrlen, hrraw, hrovf⟩ := h
  have hverdict : classify s₁ = classify s₂ := by simp only [classify, hracc, hhold, hrlen, hrraw]
  exact ⟨⟨hcfg, rfl, rfl, rfl, rfl, rfl, rfl⟩, _, endOfFrame_out s₁, by
    rw [endOfFrame_out, hverdict, hrlen, hrovf]⟩

/-- A line event reads the framer and MAX_RAW alone. -/
theorem exec_line_sameFraming (i : Instr) {s₁ s₂ : State} (hi : i.isLine = true) (h : SameFramer s₁ s₂) :
    ∃ t₁ t₂, exec i s₁ = .next t₁ ∧ exec i s₂ = .next t₂ ∧ SameFraming s₁ s₂ t₁ t₂ := by
  cases i with
  | lineIdle => exact ⟨s₁, s₂, rfl, rfl, .silent h rfl rfl⟩
  | rxByte b => exact ⟨_, _, rfl, rfl, takeByte_sameFraming b h⟩
  | rxEof => exact ⟨_, _, rfl, rfl, endOfFrame_sameFraming h⟩
  | rxByteEof b =>
    have hbyte := takeByte_sameFraming b h
    exact ⟨_, _, rfl, rfl, hbyte.trans (endOfFrame_sameFraming hbyte.framer)⟩
  | nop | crcInit | crcByte b | txStart | txByte b | txEnd | regRead n | reset => simp [Instr.isLine] at hi

/-- A line event leaves TXS and TACC alone. -/
theorem exec_line_sameGenerator (i : Instr) (s t : State) (hi : i.isLine = true) (h : exec i s = .next t) :
    SameGenerator s t := by
  have hside := exec_txSide i s t h
  rw [performTx_line _ i hi] at hside
  exact (generatorOf_eq_iff s t).mp (congrArg Prod.fst hside).symm

/-- Settles O32: a generator command is the generator's own step and keeps to the frame of a host command; a line event
is the framer's own step and is invisible on the TX side. -/
theorem generatorAndFramerAreUncoupled : Obligations.GeneratorAndFramerAreUncoupled := by
  refine ⟨fun i s₁ s₂ hi hgen => ?generator, fun i s₁ s₂ hi hframer => ?framer⟩
  case generator =>
    obtain ⟨t₁, h₁, hgen₁, hout₁⟩ := exec_generatorCommand i s₁ hi
    obtain ⟨t₂, h₂, hgen₂, hout₂⟩ := exec_generatorCommand i s₂ hi
    rw [← generatorOf_eq_iff] at hgen
    have hgen' : generatorOf t₁ = generatorOf t₂ := by rw [hgen₁, hgen₂, hgen]
    exact ⟨t₁, t₂, _, h₁, h₂, (generatorOf_eq_iff t₁ t₂).mp hgen', exec_generatorCommand_sameFramer i s₁ t₁ hi h₁,
      hout₁, by rw [hout₂, hgen]⟩
  case framer =>
    obtain ⟨t₁, t₂, h₁, h₂, hsame, es, hout₁, hout₂⟩ := exec_line_sameFraming i hi hframer
    exact ⟨t₁, t₂, es, h₁, h₂, hsame, exec_line_sameGenerator i s₁ t₁ hi h₁, hout₁, hout₂⟩

end Sys2Proof.Machine
end

section
/-! PROOFS. The framer (42_framer.md): a line byte, the end of frame, and what one receive window reports. -/

namespace Sys2Proof.Machine

/-! ### Lists of frame bytes -/

theorem frameBody_eq_nil {d : List Byte} (h : d.length ≤ 2) : frameBody d = [] :=
  List.eq_nil_of_length_eq_zero (by rw [frameBody_length]; omega)

@[simp] theorem frameBody_append_two (d : List Byte) (a b : Byte) : frameBody (d ++ [a, b]) = d := by
  simp [frameBody]

@[simp] theorem lastTwo_append_two (d : List Byte) (a b : Byte) : lastTwo (d ++ [a, b]) = joinBytes b a := by
  simp [lastTwo, List.getD]

/-- The verdicts that report the check values are those of stripped length 3 or more. -/
theorem windowVerdict_reportsCheck (m : Nat) (r : List Byte) :
    (windowVerdict m r).reportsCheck = decide (3 ≤ (stripIdle (r.take m)).length) := by
  have hle : (stripIdle (r.take m)).length ≤ r.length := by
    have := stripIdle_length_le (r.take m)
    rw [List.length_take] at this
    omega
  unfold windowVerdict
  split
  · next h0 => exact (decide_eq_false (by omega)).symm
  · split
    · next hshort => exact (decide_eq_false (by omega)).symm
    · next hlong => rw [decide_eq_true (by omega)]; split <;> rfl

/-! ### A line byte (R98, R99, R105) -/

theorem takeByte_padding (s : State) (h : s.rraw ≠ s.config.maxRaw) (hx : s.rxs = .hunt) :
    takeByte 0xFF s = { s with rraw := s.rraw + 1 } :=
  takeByte_hunt 0xFF s h hx

theorem takeByte_first (b : Byte) (s : State) (h : s.rraw ≠ s.config.maxRaw) (hx : s.rxs = .hunt) (hb : b ≠ 0xFF) :
    takeByte b s = { s with rraw := s.rraw + 1, rxs := .frame, rlen := 1, hold := .one b } :=
  (takeByte_hunt b s h hx).trans (if_neg hb)

theorem frameByte_empty (b : Byte) (s : State) (h : s.hold = .empty) :
    frameByte b s = { s with rlen := s.rlen + 1, hold := .one b } := by
  simp [frameByte, holdPush, h]

theorem frameByte_one (b a : Byte) (s : State) (h : s.hold = .one a) :
    frameByte b s = { s with rlen := s.rlen + 1, hold := .two a b } := by
  simp [frameByte, holdPush, h]

theorem frameByte_two (b a c : Byte) (s : State) (h : s.hold = .two a c) :
    frameByte b s =
      { s with
        rlen := s.rlen + 1
        racc := crcStep s.racc a
        hold := .two c b
        out := s.out ++ [.rx (.byte a)] } := by
  simp [frameByte, holdPush, h, emit]

/-- Settles O35, by the branches of R98 and, in FRAME, the bytes the hold line holds. -/
theorem rxByteTakesALineByte : Obligations.RxByteTakesALineByte := by
  refine ⟨fun b => let ⟨_, hbyte, _, _⟩ := decodeLine_append b; hbyte, fun b s hfull => ?dropped,
    fun b s hroom hx hb => ?padding, fun b s hroom hx hb => ?first, fun b s hroom hx hh => ?none,
    fun b a s hroom hx hh => ?one, fun b a c s hroom hx hh => ?two⟩
  case dropped => rw [exec_rxByte, takeByte_full b s hfull]
  case padding => rw [exec_rxByte, hb, takeByte_padding s hroom hx]
  case first => rw [exec_rxByte, takeByte_first b s hroom hx hb]
  case none => exact congrArg _ ((takeByte_frame b s hroom hx).trans (frameByte_empty b _ hh))
  case one => exact congrArg _ ((takeByte_frame b s hroom hx).trans (frameByte_one b a _ hh))
  case two => exact congrArg _ ((takeByte_frame b s hroom hx).trans (frameByte_two b a c _ hh))

/-- Settles O37: the meaning of RX_BYTE_EOF is that of RX_BYTE, then that of RX_EOF. -/
theorem rxByteEofIsTheByteThenTheEnd : Obligations.RxByteEofIsTheByteThenTheEnd :=
  ⟨fun b => let ⟨_, _, _, hbyteEof⟩ := decodeLine_append b; hbyteEof,
    fun b s => ⟨_, _, exec_rxByte b s, exec_rxEof (takeByte b s), exec_rxByteEof b s⟩⟩

/-! ### The hold line and the frame bytes (R28) -/

/-- The hold line ends the list of frame bytes: both are empty, or it holds the only one, or the last two. -/
theorem FrameBytes.hold_cases {s : State} {f : List Byte} (h : FrameBytes s f) :
    (f = [] ∧ s.hold = .empty) ∨ (∃ a, f = [a] ∧ s.hold = .one a) ∨
      ∃ a c, f = frameBody f ++ [a, c] ∧ s.hold = .two a c := by
  obtain ⟨-, heq, -⟩ := h
  have hlen : f.length = f.length - 2 + (holdList s.hold).length := by
    conv_lhs => rw [heq, List.length_append, frameBody_length]
  cases hh : s.hold with
  | empty =>
    simp only [hh, holdList, List.length_nil] at hlen
    exact .inl ⟨List.eq_nil_of_length_eq_zero (by omega), rfl⟩
  | one a =>
    simp only [hh, holdList, List.length_singleton] at hlen
    have hbody : frameBody f = [] := frameBody_eq_nil (by omega)
    rw [hh, hbody] at heq
    exact .inr (.inl ⟨a, heq, rfl⟩)
  | two a c =>
    rw [hh] at heq
    exact .inr (.inr ⟨a, c, heq, rfl⟩)

theorem FrameBytes.hold_two {s : State} {f : List Byte} (h : FrameBytes s f) (h2 : 2 ≤ f.length) :
    ∃ a c, f = frameBody f ++ [a, c] ∧ s.hold = .two a c := by
  rcases h.hold_cases with ⟨rfl, _⟩ | ⟨a, rfl, _⟩ | htwo
  · simp at h2
  · simp at h2
  · exact htwo

/-- The check field of the window is the last two frame bytes (R50). -/
theorem FrameBytes.checkField_eq {s : State} {f : List Byte} (h : FrameBytes s f) (h2 : 2 ≤ f.length) :
    checkField s.hold = lastTwo f := by
  obtain ⟨a, c, hf, hhold⟩ := h.hold_two h2
  rw [hhold, hf, lastTwo_append_two, checkField_two]

/-- The CRC test of R102 is the source's `validate`. -/
theorem FrameBytes.validate_eq {s : State} {f : List Byte} (h : FrameBytes s f) (h3 : 3 ≤ f.length) :
    validate f = decide (checkField s.hold = s.racc) := by
  have ⟨_, _, hracc⟩ := h
  rw [validate, decide_eq_true h3, Bool.true_and, h.checkField_eq (by omega), hracc, beq_eq_decide]

/-- `s` has taken the frame bytes `f`, and put all of them but the last two on the RX frame output, after `sent`. -/
structure FrameTaken (sent : List FrameEvent) (f : List Byte) (s : State) : Prop where
  bytes : FrameBytes s f
  emitted : rxPort s.out = sent ++ (frameBody f).map .byte

/-- A push takes one frame byte more; the byte that falls out of the hold line is emitted and fed to RACC (R99). -/
theorem FrameTaken.after_frameByte {sent : List FrameEvent} {f : List Byte} {s : State} (h : FrameTaken sent f s)
    (b : Byte) (hroom : s.rlen.toNat + 1 < 2 ^ 16) : FrameTaken sent (f ++ [b]) (frameByte b s) := by
  obtain ⟨hbytes, hemit⟩ := h
  have ⟨hlen, _, hracc⟩ := hbytes
  have hcount : (f ++ [b]).length = (s.rlen + 1).toNat := by
    rw [List.length_append, hlen, BitVec.toNat_add_of_lt hroom]; rfl
  rcases hbytes.hold_cases with ⟨rfl, hhold⟩ | ⟨a, rfl, hhold⟩ | ⟨a, c, hf, hhold⟩
  · rw [frameByte_empty b s hhold]
    exact ⟨⟨hcount, rfl, hracc⟩, hemit⟩
  · rw [frameByte_one b a s hhold]
    exact ⟨⟨hcount, rfl, hracc⟩, hemit⟩
  · have hsnoc : f ++ [b] = frameBody f ++ [a] ++ [c, b] := by rw [hf]; simp
    have hbody : frameBody (f ++ [b]) = frameBody f ++ [a] := by rw [hsnoc, frameBody_append_two]
    rw [frameByte_two b a c s hhold]
    refine ⟨⟨hcount, ?_, ?_⟩, ?_⟩
    · rw [hbody]; exact hsnoc
    · rw [hbody, crc16_snoc, ← hracc]
    · rw [hbody]; simp [hemit]

/-! ### The end of frame (R101 to R103) -/

/-- RX_EOF, by the verdict. -/
theorem endOfFrame_of_classify (s : State) (v : Verdict) (h : classify s = v) :
    endOfFrame s =
      { s with
        out := s.out ++ [.rx (.finish v s.rovf s.rlen)]
        lverd := some v
        lovf := s.rovf
        llen := s.rlen
        lrecv := if v.reportsCheck then checkField s.hold else 0
        lcalc := if v.reportsCheck then s.racc else 0
        fcnt := s.fcnt + 1
        rxs := .hunt, racc := 0xFFFF, hold := .empty, rlen := 0, rraw := 0, rovf := false } := by
  subst h
  rfl

theorem classify_noData (s : State) (h : s.rraw = 0) : classify s = .noData := if_pos h

theorem classify_short (s : State) (h : s.rraw ≠ 0) (h3 : s.rlen.toNat < 3) : classify s = .short :=
  (if_neg h).trans (if_pos h3)

theorem classify_check (s : State) (h : s.rraw ≠ 0) (h3 : 3 ≤ s.rlen.toNat) :
    classify s = if checkField s.hold = s.racc then .ok else .crcErr :=
  (if_neg h).trans (if_neg (Nat.not_lt.mpr h3))

/-- Settles O36, by the three tests of R102; R43 (f) puts two bytes in the hold line of a window of stripped length 3 or
more. -/
theorem rxEofReportsAndClosesTheWindow : Obligations.RxEofReportsAndClosesTheWindow := by
  refine ⟨fun data => let ⟨_, _, heof, _⟩ := decodeLine_append data; heof, fun s h0 => ?noData, fun s h0 h3 => ?short,
    fun a b s h0 h3 hhold => ⟨_, rfl, ?check⟩, fun s hinv h3 => ?held⟩
  case noData => exact congrArg _ (endOfFrame_of_classify s _ (classify_noData s h0))
  case short => exact congrArg _ (endOfFrame_of_classify s _ (classify_short s h0 h3))
  case check =>
    have hfield : checkField s.hold = b ++ a := by rw [hhold, checkField_two, joinBytes_eq_append]
    have hverdict := classify_check s h0 h3
    rw [hfield] at hverdict
    have hreports : (if b ++ a = s.racc then Verdict.ok else .crcErr).reportsCheck = true := by split <;> rfl
    rw [exec_rxEof, endOfFrame_of_classify s _ hverdict, hreports, hfield]
    rfl
  case held =>
    obtain ⟨f, hf⟩ := hinv.frameBytes
    have ⟨hlen, _, _⟩ := hf
    obtain ⟨a, c, -, hhold⟩ := hf.hold_two (by omega)
    exact ⟨a, c, hhold⟩

/-! ### The open window (R27 to R31, R100) -/

/-- In `s`, with MAX_RAW `m`, a receive window is open that has taken the raw bytes `r`; before it, `sent` had been put
on the RX frame output. -/
structure OpenWindow (m : Nat) (sent : List FrameEvent) (r : List Byte) (s : State) : Prop where
  maxRaw : s.config.maxRaw.toNat = m
  taken : FrameTaken sent (stripIdle (r.take m)) s
  rxs : s.rxs = .hunt ↔ stripIdle (r.take m) = []
  rraw : s.rraw.toNat = min r.length m
  rovf : s.rovf = decide (m < r.length)

section

variable {m : Nat} {sent : List FrameEvent} {r : List Byte} {s : State}

theorem FreshWindow.openWindow (h : FreshWindow s) : OpenWindow s.config.maxRaw.toNat (rxPort s.out) [] s := by
  obtain ⟨hrxs, hracc, hhold, hrlen, hrraw, hrovf⟩ := h
  refine ⟨rfl, ⟨⟨?_, ?_, ?_⟩, ?_⟩, ?_, ?_, ?_⟩
  · simp [stripIdle, hrlen]
  · simp [stripIdle, frameBody, hhold, holdList]
  · simp [stripIdle, frameBody, hracc]
  · simp [stripIdle, frameBody]
  · simp [stripIdle, hrxs]
  · simp [hrraw]
  · simp [hrovf]

/-- The window is a matter of the framer and of the RX frame output alone. -/
theorem OpenWindow.of_sameFramer {t : State} (h : OpenWindow m sent r s) (hf : SameFramer s t)
    (ho : rxPort t.out = rxPort s.out) : OpenWindow m sent r t := by
  obtain ⟨hmax, ⟨⟨hlen, hhold, hracc⟩, hemit⟩, hrxs, hrraw, hrovf⟩ := h
  obtain ⟨hcfg', hrxs', hracc', hhold', hrlen', hrraw', hrovf'⟩ := hf
  exact ⟨hcfg' ▸ hmax, ⟨⟨hrlen' ▸ hlen, hhold' ▸ hhold, hracc' ▸ hracc⟩, ho.trans hemit⟩, hrxs' ▸ hrxs,
    hrraw' ▸ hrraw, hrovf' ▸ hrovf⟩

/-- A byte past MAX_RAW is no part of the window but for ROVF. -/
theorem OpenWindow.after_takeByte_dropped (h : OpenWindow m sent r s) (b : Byte) (hfull : m ≤ r.length) :
    OpenWindow m sent (r ++ [b]) { s with rovf := true } := by
  obtain ⟨hmax, htaken, hrxs, hrraw, -⟩ := h
  have htake : (r ++ [b]).take m = r.take m := List.take_append_of_le_length hfull
  refine ⟨hmax, ?_, ?_, ?_, ?_⟩
  · rw [htake]; exact ⟨htaken.bytes, htaken.emitted⟩
  · rw [htake]; exact hrxs
  · rw [List.length_append, List.length_singleton]; show s.rraw.toNat = _; omega
  · rw [List.length_append, List.length_singleton]; exact (decide_eq_true (by omega)).symm

/-- The window after a byte within MAX_RAW: RRAW has counted it, and ROVF is as it was. -/
theorem OpenWindow.of_counted {f : List Byte} {t : State} (h : OpenWindow m sent r s) (b : Byte) (hroom : r.length < m)
    (hcfg : t.config = s.config) (hraw : t.rraw = s.rraw + 1) (hovf : t.rovf = s.rovf)
    (hstrip : stripIdle (r ++ [b]) = f) (htaken : FrameTaken sent f t) (hrxs : t.rxs = .hunt ↔ f = []) :
    OpenWindow m sent (r ++ [b]) t := by
  subst hstrip
  obtain ⟨hmax, -, -, hrraw, hrovf⟩ := h
  have hlen : (r ++ [b]).length = r.length + 1 := List.length_append
  have htake : (r ++ [b]).take m = r ++ [b] := List.take_of_length_le (by omega)
  have hbound : m < 2 ^ 16 := hmax ▸ s.config.maxRaw.isLt
  have hrraw' : s.rraw.toNat = r.length := by omega
  refine ⟨hcfg ▸ hmax, htake.symm ▸ htaken, htake.symm ▸ hrxs, ?_, ?_⟩
  · rw [hraw, BitVec.toNat_add_of_lt (by simp; omega), hrraw', hlen, Nat.min_eq_left (by omega)]; rfl
  · rw [hovf, hrovf, decide_eq_false (by omega), decide_eq_false (by omega)]

/-- In HUNT, the byte is stripped if it is padding, and otherwise starts the frame. -/
theorem OpenWindow.after_takeByte_hunt (h : OpenWindow m sent r s) (b : Byte) (hroom : r.length < m)
    (hraw : s.rraw ≠ s.config.maxRaw) (hx : s.rxs = .hunt) : OpenWindow m sent (r ++ [b]) (takeByte b s) := by
  have ⟨_, ⟨hbytes, hemit⟩, hrxs, _, _⟩ := h
  have hnone := hrxs.mp hx
  rw [hnone] at hbytes hemit
  rw [List.take_of_length_le (by omega)] at hnone
  have hstrip := stripIdle_snoc r b
  rw [if_pos hnone] at hstrip
  by_cases hb : b = 0xFF
  · rw [if_pos hb] at hstrip
    rw [hb, takeByte_padding s hraw hx, ← hb]
    exact h.of_counted b hroom rfl rfl rfl hstrip ⟨hbytes, hemit⟩ (iff_of_true hx rfl)
  · obtain ⟨-, -, hracc⟩ := hbytes
    rw [if_neg hb] at hstrip
    rw [takeByte_first b s hraw hx hb]
    exact h.of_counted b hroom rfl rfl rfl hstrip ⟨⟨rfl, rfl, hracc⟩, hemit⟩ (by simp)

/-- In FRAME, the byte is frame data, whatever it is (R100). -/
theorem OpenWindow.after_takeByte_frame (h : OpenWindow m sent r s) (b : Byte) (hroom : r.length < m)
    (hraw : s.rraw ≠ s.config.maxRaw) (hx : s.rxs = .frame) : OpenWindow m sent (r ++ [b]) (takeByte b s) := by
  have ⟨hmax, ⟨hbytes, hemit⟩, hrxs, _, _⟩ := h
  rw [List.take_of_length_le (by omega)] at hbytes hemit hrxs
  have hstrip : stripIdle (r ++ [b]) = stripIdle r ++ [b] := by
    rw [stripIdle_snoc, if_neg (by simp [← hrxs, hx])]
  have hcount : s.rlen.toNat + 1 < 2 ^ 16 := by
    have ⟨hlen, _, _⟩ := hbytes
    have hle := stripIdle_length_le r
    have hbound : m < 2 ^ 16 := hmax ▸ s.config.maxRaw.isLt
    omega
  have hcounted : FrameTaken sent (stripIdle r) { s with rraw := s.rraw + 1 } := ⟨hbytes, hemit⟩
  rw [takeByte_frame b s hraw hx]
  refine h.of_counted b hroom ?_ ?_ ?_ hstrip (hcounted.after_frameByte b hcount) ?_
  · simp [frameByte]
  · simp [frameByte]
  · simp [frameByte]
  · simp [frameByte, hx]

theorem OpenWindow.after_takeByte (h : OpenWindow m sent r s) (b : Byte) :
    OpenWindow m sent (r ++ [b]) (takeByte b s) := by
  have ⟨hmax, _, _, hrraw, _⟩ := h
  by_cases hfull : s.rraw = s.config.maxRaw
  · rw [hfull, hmax] at hrraw
    rw [takeByte_full b s hfull]
    exact h.after_takeByte_dropped b (by omega)
  · have hne : s.rraw.toNat ≠ m := fun heq => hfull (BitVec.eq_of_toNat_eq (heq.trans hmax.symm))
    cases hx : s.rxs with
    | hunt => exact h.after_takeByte_hunt b (by omega) hfull hx
    | frame => exact h.after_takeByte_frame b (by omega) hfull hx

/-! ### What the open window reports (R102, R106) -/

theorem OpenWindow.classify_eq (h : OpenWindow m sent r s) (hm : m ≠ 0) : classify s = windowVerdict m r := by
  obtain ⟨-, ⟨hbytes, -⟩, -, hrraw, -⟩ := h
  have ⟨hlen, _, _⟩ := hbytes
  unfold windowVerdict
  by_cases hr : r.length = 0
  · rw [if_pos hr, classify_noData s (BitVec.eq_of_toNat_eq (by simp; omega))]
  have hraw : s.rraw ≠ 0 := fun h0 => by simp [h0] at hrraw; omega
  rw [if_neg hr, hlen]
  by_cases h3 : s.rlen.toNat < 3
  · rw [if_pos h3, classify_short s hraw h3]
  · rw [if_neg h3, classify_check s hraw (by omega), hbytes.validate_eq (by omega)]
    simp

theorem freshWindow_endOfFrame (s : State) : FreshWindow (endOfFrame s) := ⟨rfl, rfl, rfl, rfl, rfl, rfl⟩

/-- `t` has just reported a window whose raw bytes are `r`, as R106 says, and a fresh window is open in it. -/
structure WindowReported (m : Nat) (sent : List FrameEvent) (r : List Byte) (t : State) : Prop where
  events : rxPort t.out = sent ++ windowEvents m r
  lverd : t.lverd = some (windowVerdict m r)
  lovf : t.lovf = decide (m < r.length)
  llen : t.llen.toNat = (stripIdle (r.take m)).length
  lrecv : t.lrecv = if 3 ≤ (stripIdle (r.take m)).length then lastTwo (stripIdle (r.take m)) else 0
  lcalc : t.lcalc = if 3 ≤ (stripIdle (r.take m)).length then crc16 (frameBody (stripIdle (r.take m))) else 0
  fresh : FreshWindow t

theorem OpenWindow.reported_endOfFrame (h : OpenWindow m sent r s) (hm : m ≠ 0) :
    WindowReported m sent r (endOfFrame s) := by
  have hverdict := h.classify_eq hm
  obtain ⟨-, ⟨hbytes, hemit⟩, -, -, hrovf⟩ := h
  have ⟨hlen, _, hracc⟩ := hbytes
  have hreports : (classify s).reportsCheck = true ↔ 3 ≤ (stripIdle (r.take m)).length := by
    rw [hverdict, windowVerdict_reportsCheck, decide_eq_true_iff]
  refine ⟨?_, by rw [endOfFrame_lverd, hverdict], hrovf, hlen.symm, ?_, ?_, freshWindow_endOfFrame s⟩
  · rw [endOfFrame_out, rxPort_append, rxPort_rx, hemit, hverdict, hrovf, windowEvents, hlen, BitVec.ofNat_toNat,
      BitVec.setWidth_eq, List.append_assoc]
  · rw [endOfFrame_lrecv]
    simp only [hreports]
    split
    · next h3 => exact hbytes.checkField_eq (by omega)
    · rfl
  · rw [endOfFrame_lcalc]
    simp only [hreports, hracc]

/-- A command changes nothing of the report. -/
theorem CommandFrame.windowReported {t : State} (hf : CommandFrame s t) (h : WindowReported m sent r s) :
    WindowReported m sent r t := by
  have hport := hf.rxPort_eq
  rw [hf.eq] at hport ⊢
  exact ⟨hport.trans h.events, h.lverd, h.lovf, h.llen, h.lrecv, h.lcalc, h.fresh⟩

/-! ### A window over a run (R106) -/

/-- The state once the line byte of an input, if it has one, is taken (R117). -/
def takeLineByte (i : Input) (s : State) : State := (lineByteOf i).elim s (takeByte · s)

/-- The line part of a cycle is the line byte, then the end of frame (R117). -/
theorem exec_decodeLine (l : LineWord) (c : Option HostWord) (s : State) :
    exec (decodeLine l) s =
      .next (if endsFrame (.cycle l c) then endOfFrame (takeLineByte (.cycle l c) s)
        else takeLineByte (.cycle l c) s) := by
  unfold decodeLine
  split <;> next he hv => simp [takeLineByte, lineByteOf, endsFrame, he, hv]

/-- An input that does not reset is its line byte and end of frame, then a command. -/
theorem performInput_commandFrame (i : Input) (s t : State) (hr : resets i = false) (h : performInput i s = .next t) :
    CommandFrame (if endsFrame i then endOfFrame (takeLineByte i s) else takeLineByte i s) t := by
  rcases performInput_cases i s t h with ⟨hr', _⟩ | ⟨_, l, c, u, rfl, hu, hf⟩
  · rw [hr] at hr'; contradiction
  · rw [exec_decodeLine l c] at hu
    injection hu with hu
    rwa [hu]

theorem OpenWindow.after_takeLineByte (h : OpenWindow m sent r s) (i : Input) :
    OpenWindow m sent (r ++ (lineByteOf i).toList) (takeLineByte i s) := by
  unfold takeLineByte
  cases lineByteOf i with
  | none => simpa using h
  | some b => exact h.after_takeByte b

theorem OpenWindow.withInputs (h : OpenWindow m sent r s) (ins : List Input) :
    OpenWindow m sent r { s with inputs := ins } :=
  h.of_sameFramer ⟨rfl, rfl, rfl, rfl, rfl, rfl, rfl⟩ rfl

/-- A run of `k + n` steps goes on with `n` steps after the first `k`. -/
theorem runSteps_add (k n : Nat) (s u : State) (h : runSteps k s = .next u) : runSteps (k + n) s = runSteps n u := by
  induction k generalizing s with
  | zero => rw [runSteps_zero] at h; injection h with h; rw [h, Nat.zero_add]
  | succ k ih =>
    obtain ⟨t, hs⟩ : ∃ t, step s = .next t := performInput_next (nextInput s) (takeInput s)
    rw [runSteps_succ_of_step k s t hs] at h
    rw [Nat.succ_add, runSteps_succ_of_step _ s t hs, ih t h]

/-- A run without a reset or an end of frame leaves the window open, with the line bytes of its inputs taken. -/
theorem OpenWindow.after_runSteps (ins rest : List Input)
    (h : OpenWindow m sent r s) (hs : s.inputs = ins ++ rest)
    (hins : ∀ i ∈ ins, resets i = false ∧ endsFrame i = false) :
    ∃ t, runSteps ins.length s = .next t ∧ t.inputs = rest ∧ OpenWindow m sent (r ++ ins.filterMap lineByteOf) t := by
  induction ins generalizing r s with
  | nil => exact ⟨s, rfl, hs, by simpa using h⟩
  | cons i ins ih =>
    obtain ⟨⟨hreset, hend⟩, hlater⟩ := List.forall_mem_cons.mp hins
    obtain ⟨u, hu⟩ := performInput_next i { s with inputs := ins ++ rest }
    have hf := performInput_commandFrame i _ u hreset hu
    rw [if_neg (by simp [hend])] at hf
    have hopen : OpenWindow m sent (r ++ (lineByteOf i).toList) u :=
      ((h.withInputs _).after_takeLineByte i).of_sameFramer hf.sameFramer hf.rxPort_eq
    obtain ⟨t, hrun, hrest, ht⟩ := ih hopen (performInput_inputs i _ u hu) hlater
    refine ⟨t, by rw [List.length_cons, runSteps_of_inputs_cons _ s u i _ hs hu, hrun], hrest, ?_⟩
    rw [List.filterMap_cons]
    cases hb : lineByteOf i <;> simpa [hb] using ht

/-- The last cycle of a window takes its line byte, reports, and performs a command, which leaves the report alone. -/
theorem OpenWindow.reported_runSteps (body : List Input) (last : Input) (rest : List Input)
    (h : OpenWindow m sent r s) (hm : m ≠ 0) (hs : s.inputs = body ++ last :: rest)
    (hbody : ∀ i ∈ body, resets i = false ∧ endsFrame i = false) (hlast : resets last = false)
    (hend : endsFrame last = true) :
    ∃ t, runSteps (body.length + 1) s = .next t ∧ t.inputs = rest ∧
      WindowReported m sent (r ++ (body ++ [last]).filterMap lineByteOf) t := by
  obtain ⟨u, hrun, hin, hopen⟩ := h.after_runSteps body (last :: rest) hs hbody
  obtain ⟨t, ht⟩ := performInput_next last { u with inputs := rest }
  have hf := performInput_commandFrame last _ t hlast ht
  rw [if_pos hend] at hf
  have hraw : r ++ body.filterMap lineByteOf ++ (lineByteOf last).toList =
      r ++ (body ++ [last]).filterMap lineByteOf := by
    cases hb : lineByteOf last <;> simp [hb]
  refine ⟨t, ?_, performInput_inputs last _ t ht, hraw ▸ hf.windowReported ?_⟩
  · rw [runSteps_add _ 1 s u hrun, runSteps_of_inputs_cons 0 u t last rest hin ht, runSteps_zero]
  · exact ((hopen.withInputs rest).after_takeLineByte last).reported_endOfFrame hm

end

/-- One end of frame in a run counts one window (R37). -/
theorem runSteps_fcnt_of_one_end (body : List Input) (last : Input) (rest : List Input) (s t : State)
    (hs : s.inputs = body ++ last :: rest) (hbody : ∀ i ∈ body, resets i = false ∧ endsFrame i = false)
    (hlast : resets last = false) (hend : endsFrame last = true) (hrun : runSteps (body.length + 1) s = .next t) :
    t.fcnt = s.fcnt + 1 := by
  have hresets : ∀ i ∈ body ++ [last], resets i = false := by
    simpa [or_imp, forall_and, hlast] using fun i hi => (hbody i hi).1
  have hcount : (body ++ [last]).countP endsFrame = 1 := by
    simpa [hend, List.countP_eq_zero] using fun i hi => (hbody i hi).2
  obtain ⟨t', hrun', -, hclose⟩ := runSteps_closesWindows (body ++ [last]) rest s (by simp [hs]) hresets
  rw [List.length_append, List.length_singleton, hrun] at hrun'
  injection hrun' with htt'
  rw [htt', hclose.fcnt, hcount]
  rfl

/-- Settles O39: the cycles before the last keep the window open and take its raw bytes; the end of frame then reports
what the source's functions give for them. -/
theorem windowReportsTheSourceFunctions : Obligations.WindowReportsTheSourceFunctions := by
  rintro body last rest s r hs hwf hfresh hbody hlast hend rfl
  have hm : s.config.maxRaw.toNat ≠ 0 := by
    have hmin : 3 ≤ s.config.maxRaw.toNat := of_decide_eq_true hwf
    omega
  obtain ⟨t, hrun, hrest, hevents, hlverd, hlovf, hllen, hlrecv, hlcalc, hfresh'⟩ :=
    hfresh.openWindow.reported_runSteps body last rest hm hs hbody hlast hend
  exact ⟨t, hrun, hrest, hevents, hlverd, hlovf, hllen, hlrecv, hlcalc,
    runSteps_fcnt_of_one_end body last rest s t hs hbody hlast hend hrun, hfresh'⟩

end Sys2Proof.Machine
end

section
/-! PROOFS. Control (43_control.md): NOP, REG_READ and RESET, and the order in which a cycle performs its parts. -/

namespace Sys2Proof.Machine

/-! ### NOP and LINE_IDLE (R111, R97) -/

theorem cycle_eq (l : LineWord) (c : Option HostWord) (s : State) :
    cycle l c s = andThen (exec (decodeLine l) s) (performCommand c) := rfl

/-- Presenting `NOP` is presenting no command. -/
theorem performCommand_nop : performCommand (some 0x0000) = performCommand none :=
  funext fun s => performCommand_ok _ .nop s (decodeHost_append 0x00 0x00)

/-- Settles O22: the rows of opcode 0x00 and of line form 0, whose meanings are the identity. -/
theorem nopAndLineIdleChangeNothing : Obligations.NopAndLineIdleChangeNothing := by
  refine ⟨decodeHost_append 0x00 0x00, exec_nop,
    fun opd s h => performCommand_nonzeroOperand (decodeHost_append 0x00 opd) h s, fun l s => ?emptySlot,
    fun data => let ⟨hidle, _, _, _⟩ := decodeLine_append data; hidle, exec_lineIdle⟩
  case emptySlot => rw [cycle_eq, cycle_eq, performCommand_nop]

/-! ### REG_READ (R112) -/

theorem exec_regRead_regNumber (r : Reg) (s : State) :
    exec (.regRead (regNumber r)) s = .next { s with out := s.out ++ [.response (regValue s r)] } :=
  exec_regRead_some _ r s (regOfNumber_regNumber r)

/-- What has been emitted is read by no register. -/
theorem regValue_withOut (s : State) (out : List PortEvent) (r : Reg) :
    regValue { s with out := out } r = regValue s r := by
  cases r <;> rfl

/-- A read leaves every register alone, so repeating it responds the same word. -/
theorem exec_regRead_twice (r : Reg) (s : State) :
    andThen (exec (.regRead (regNumber r)) s) (exec (.regRead (regNumber r))) =
      .next { s with out := s.out ++ [.response (regValue s r), .response (regValue s r)] } := by
  rw [exec_regRead_regNumber, andThen_next, exec_regRead_regNumber, regValue_withOut, List.append_assoc]
  rfl

/-- Settles O23: the table is that of the register map, and a number outside it only adds BAD_REG to the response. -/
theorem regReadRespondsWithTheRegister : Obligations.RegReadRespondsWithTheRegister := by
  refine ⟨decodeHost_append 0x20, fun n v s hmem => ?implemented, fun n s hn => ?reserved⟩
  case implemented =>
    have hmap : (n, v) ∈ allRegs.map fun r => (regNumber r, regValue s r) := hmem
    obtain ⟨r, -, hr⟩ := List.mem_map.mp hmap
    obtain ⟨rfl, rfl⟩ := Prod.mk.inj hr
    exact ⟨exec_regRead_regNumber r s, exec_regRead_twice r s⟩
  case reserved => rw [exec_regRead_none n s ((regOfNumber_none_iff n).mpr hn), raiseCmdError_eq]

/-! ### RESET (R113) -/

/-- STATUS reads 0 after a reset (R136). -/
theorem statusWord_applyReset (s : State) : statusWord (applyReset s) = 0 :=
  have hreset : statusWord (applyReset s) = statusWord State.reset := rfl
  hreset.trans statusWord_reset

theorem performCommand_reset (s : State) : performCommand (some 0x3000) s = .next (applyReset s) :=
  performCommand_ok _ .reset s (decodeHost_append 0x30 0x00)

/-- Settles O25: the line event of the cycle leaves MAX_RAW and what is presented next alone, and of what it does the
reset keeps only what was emitted. -/
theorem resetCommandRestoresTheResetState : Obligations.ResetCommandRestoresTheResetState := by
  refine ⟨decodeHost_append 0x30 0x00, exec_reset, fun l s => ?sameCycle,
    fun opd s h => performCommand_nonzeroOperand (decodeHost_append 0x30 opd) h s⟩
  case sameCycle =>
    obtain ⟨u, hu⟩ := exec_next (decodeLine l) s
    obtain ⟨hcfg, hin, -, -⟩ := exec_line_frame _ s u (decodeLine_isLine l) hu
    refine ⟨u, applyReset u, hu, ?_, ?_, statusWord_applyReset u⟩
    · rw [cycle_eq, hu, andThen_next, performCommand_reset]
    · rw [applyReset_eq, hcfg, hin]

/-! ### The parts of a cycle, in order (R117) -/

/-- The line byte of a cycle is performed when VALID is set. -/
theorem exec_rxByte_of_validBit (l : LineWord) (c : Option HostWord) (s : State) :
    (if validBit l then exec (.rxByte (dataField l)) s else .next s) = .next (takeLineByte (.cycle l c) s) := by
  cases hv : validBit l <;> simp [takeLineByte, lineByteOf, hv]

/-- The line event of a cycle is its line byte when VALID is set, then its end of frame when EOF is set. -/
theorem exec_decodeLine_parts (l : LineWord) (s : State) :
    ∃ s₁ s₂, (if validBit l then exec (.rxByte (dataField l)) s else .next s) = .next s₁ ∧
      (if eofBit l then exec .rxEof s₁ else .next s₁) = .next s₂ ∧ exec (decodeLine l) s = .next s₂ := by
  refine ⟨_, _, exec_rxByte_of_validBit l none s, ?_, exec_decodeLine l none s⟩
  rw [exec_rxEof, ← apply_ite]
  rfl

/-- Settles O7: the line event is the line byte, then the end of frame; the command then runs on what they leave. -/
theorem stepPerformsTheCycle : Obligations.StepPerformsTheCycle := by
  intro s l c rest hs
  obtain ⟨s₁, s₂, hbyte, hend, hline⟩ := exec_decodeLine_parts l { s with inputs := rest }
  obtain ⟨t, ht⟩ := performCommand_next c s₂
  refine ⟨s₁, s₂, t, hbyte, hend, ?command, ?step⟩
  case command =>
    cases c with
    | none => exact ht
    | some w =>
      cases hw : decodeHost w with
      | error e => simpa [hw, performCommand_error w e s₂ hw, raiseCmdError_eq] using ht
      | ok i => simpa [hw, performCommand_ok w i s₂ hw] using ht
  case step => rw [step_of_inputs_cons s _ rest hs, performInput_cycle, hline, andThen_next, ht]

end Sys2Proof.Machine
end

section
/-! PROOFS. Errors (60_exceptions.md): what raises a command error and what it then does, what errors and verdicts leave
alone, and that no input sequence stops FMCODEC. -/

namespace Sys2Proof.Machine

/-! ### No input sequence stops FMCODEC (R135) -/

theorem step_next (s : State) : ∃ t, step s = .next t := performInput_next (nextInput s) (takeInput s)

/-- Settles O10, by induction on the number of steps: every state, with whatever is presented to it, has a next one. -/
theorem noInputSequenceStopsTheMachine : Obligations.NoInputSequenceStopsTheMachine := by
  intro n
  induction n with
  | zero => exact fun s => ⟨s, runSteps_zero s⟩
  | succ n ih =>
    intro s
    obtain ⟨u, hu⟩ := step_next s
    rw [runSteps_succ_of_step n s u hu]
    exact ih u

/-! ### What raises a command error (R120, R121) -/

/-- A generator command that TXS does not admit (R89 to R91). -/
abbrev OutOfSequence (i : Instr) (s : State) : Prop :=
  (i = .txStart ∧ s.txs = .payload) ∨ ((∃ b, i = .txByte b) ∧ s.txs = .idle) ∨ (i = .txEnd ∧ s.txs = .idle)

theorem exec_outOfSequence (i : Instr) (s : State) (h : OutOfSequence i s) :
    exec i s = .next (raiseCmdError .seq s) := by
  rcases h with ⟨rfl, hs⟩ | ⟨⟨b, rfl⟩, hs⟩ | ⟨rfl, hs⟩
  · exact exec_txStart_payload s hs
  · exact exec_txByte_idle b s hs
  · exact exec_txEnd_idle s hs

/-- A read of a reserved number responds `0x0000` and raises BAD_REG (R112). -/
theorem exec_regRead_reserved (n : Byte) (s : State) (h : 0x0B ≤ n.toNat) :
    exec (.regRead n) s = .next (raiseCmdError .badReg { s with out := s.out ++ [.response 0] }) :=
  exec_regRead_none n s ((regOfNumber_none_iff n).mpr h)

/-- The first code since reset is recorded, and a later one is not. -/
theorem raiseCmdError_eq_ite (e : CmdError) (s : State) :
    raiseCmdError e s = if s.cerr = false then { s with cerr := true, ecode := some e } else s := by
  cases hc : s.cerr <;> simp [raiseCmdError, hc]

/-- Settles O27: the decoder, TXS and the register map each tell when to raise, and raising writes CERR and ECODE
alone. -/
theorem commandErrorRecordsTheFirstCode : Obligations.CommandErrorRecordsTheFirstCode :=
  ⟨raiseCmdError_eq_ite, performCommand_error, exec_outOfSequence, exec_regRead_reserved, rfl, rfl, rfl, rfl, rfl⟩

/-! ### Errors and verdicts are contained (R134) -/

/-- A legal command that raises an error records it and does nothing else but emit. -/
theorem exec_raises (i : Instr) (s : State) (h : OutOfSequence i s ∨ ∃ n, i = .regRead n ∧ 0x0B ≤ n.toNat) :
    ∃ e out, exec i s = .next (withFirstError e { s with out := out }) := by
  rcases h with hseq | ⟨n, rfl, hn⟩
  · exact ⟨.seq, s.out, by rw [exec_outOfSequence i s hseq, raiseCmdError_eq]⟩
  · exact ⟨.badReg, _, by rw [exec_regRead_reserved n s hn, raiseCmdError_eq]⟩

/-- An illegal word adds its command error to what its cycle does without it. -/
theorem cycle_illegalWord (l : LineWord) (w : HostWord) (e : CmdError) (s : State) (h : decodeHost w = .error e) :
    ∃ t, cycle l none s = .next t ∧ cycle l (some w) s = .next (withFirstError e t) := by
  obtain ⟨t, ht⟩ := exec_next (decodeLine l) s
  refine ⟨t, ?_, ?_⟩
  · rw [cycle_eq, ht, andThen_next, performCommand_none]
  · rw [cycle_eq, ht, andThen_next, performCommand_error w e t h, raiseCmdError_eq]

/-- Settles O28: an error is recorded in CERR and ECODE alone, which no line event writes. -/
theorem errorsAndVerdictsAreContained : Obligations.ErrorsAndVerdictsAreContained := by
  refine ⟨cycle_illegalWord, fun i s h => ?command, fun i s t hi h => ?line⟩
  case command =>
    obtain ⟨e, out, ht⟩ := exec_raises i s (by simpa only [or_assoc] using h)
    exact ⟨_, ht, rfl, ⟨rfl, rfl, rfl, rfl, rfl, rfl, rfl⟩, ⟨rfl, rfl⟩, rfl, rfl, rfl⟩
  case line =>
    obtain ⟨-, -, hcerr, hecode⟩ := exec_line_frame i s t hi h
    exact ⟨hcerr, hecode⟩

end Sys2Proof.Machine
end

section
/-! PROOFS. Reset (70_reset_and_hazards.md): the reset values, and the two reset events with one effect. -/

namespace Sys2Proof.Machine

/-- The hardware reset performs no cycle (R137): the step only takes the input and resets. -/
theorem step_hardwareReset (s : State) (rest : List Input) (h : s.inputs = .hardwareReset :: rest) :
    step s = .next (applyReset { s with inputs := rest }) := by
  rw [step_of_inputs_cons s _ rest h, performInput_hardwareReset]

/-- Settles O26: the values are those of the reset state, and the hardware reset and `RESET` both apply it. -/
theorem bothResetsApplyTheResetValues : Obligations.BothResetsApplyTheResetValues := by
  refine ⟨?values, fun s rest h => ⟨?sameEffect, ?effect⟩⟩
  case values =>
    exact ⟨rfl, rfl, rfl, rfl, rfl, rfl, rfl, rfl, rfl, rfl, rfl, rfl, rfl, rfl, rfl, rfl, rfl, statusWord_reset⟩
  case sameEffect => rw [step_hardwareReset s rest h, exec_reset]
  case effect => rw [step_hardwareReset s rest h, applyReset_eq]

end Sys2Proof.Machine
end

section
/-! PROOFS. Encoding (30_encoding.md sections 2 and 3): the decoder and the encoder are inverse to each other, ignored
DATA apart. -/

namespace Sys2Proof

/-- A must-be-zero command decodes only with OPD = 0, and then to itself. -/
theorem mustBeZero_ok {opd : Byte} {i j : Instr} (h : mustBeZero opd i = .ok j) : opd = 0 ∧ i = j := by
  unfold mustBeZero at h
  split at h
  · next h0 => exact ⟨h0, Except.ok.inj h⟩
  · cases h

/-- The encoder puts back the two fields a host command was decoded from. -/
theorem encode_of_decodeHost (op opd : Byte) (i : Instr) (h : decodeHost (op ++ opd) = .ok i) :
    encode i = .host (op ++ opd) := by
  have hcode {n : Nat} (hn : op.toNat = n) : op = BitVec.ofNat 8 n := by
    rw [← hn, BitVec.ofNat_toNat, BitVec.setWidth_eq]
  rw [decodeHost_append] at h
  split at h
  case h_9 => cases h
  case h_3 hop | h_5 hop | h_7 hop => cases h; rw [hcode hop]; rfl
  all_goals
    next hop =>
      obtain ⟨rfl, rfl⟩ := mustBeZero_ok h
      rw [hcode hop]
      rfl

/-- The encoder writes the form bits of a line word back, and its DATA where the form has one. -/
theorem encode_decodeLine (l : LineWord) : encode (decodeLine l) = (PortWord.line l).canonical := by
  rw [lineWord_eq_fields l]
  generalize l.extractLsb' 8 2 = f, dataField l = data
  obtain ⟨hidle, hbyte, heof, hbyteEof⟩ := decodeLine_append data
  have hform : f = 0b00#2 ∨ f = 0b01#2 ∨ f = 0b10#2 ∨ f = 0b11#2 := by revert f; decide
  rcases hform with rfl | rfl | rfl | rfl
  · rw [hidle]; revert data; decide
  · rw [hbyte]; revert data; decide
  · rw [heof]; revert data; decide
  · rw [hbyteEof]; revert data; decide

/-- Settles O3: a host command is decoded from the two fields the encoder writes, a line event from its two form bits
and its data. -/
theorem decodeOfEncodeIsTheInstruction : Obligations.DecodeOfEncodeIsTheInstruction := by
  intro i
  cases i with
  | nop | crcInit | txStart | txEnd | reset =>
    simp only [decode, encode, hostWord]
    exact decodeHost_append _ 0
  | crcByte b | txByte b | regRead b =>
    simp only [decode, encode, hostWord]
    exact decodeHost_append _ b
  | lineIdle => exact congrArg Except.ok (decodeLine_lineWord false false 0)
  | rxByte b => exact congrArg Except.ok (decodeLine_lineWord false true b)
  | rxEof => exact congrArg Except.ok (decodeLine_lineWord true false 0)
  | rxByteEof b => exact congrArg Except.ok (decodeLine_lineWord true true b)

/-- Settles O4, by the opcode of a host word and by the form of a line word. -/
theorem encodeOfDecodeIsTheCanonicalWord : Obligations.EncodeOfDecodeIsTheCanonicalWord := by
  rintro (w | l) i h
  · rw [hostWord_eq_fields w] at h ⊢
    exact encode_of_decodeHost _ _ i h
  · cases h
    exact encode_decodeLine l

end Sys2Proof
end

section
/-! PROOFS. The CRC (40_crc.md): no two accumulators are merged by feeding bytes, and what CRC_BYTE computes. -/

namespace Sys2Proof.Machine

/-! ### Injectivity (R95) -/

/-- The bit shifted out is seen in bit 15 of the result, where only `crcPoly` puts a 1: an iteration loses nothing. -/
theorem eq_zero_of_crcShift_eq_zero (a : Word) (h : crcShift a = 0) : a = 0 := by
  have htop : (crcShift a).getLsbD 15 = a.getLsbD 0 := by
    unfold crcShift
    cases ha : a.getLsbD 0 <;> simp [crcPoly]
  have h0 : a.getLsbD 0 = false := by rw [← htop, h]; rfl
  rw [crcShift, h0] at h
  apply BitVec.eq_of_getLsbD_eq
  intro i hi
  cases i with
  | zero => exact h0
  | succ i => simpa [Nat.add_comm] using congrArg (BitVec.getLsbD · i) h

theorem crcShift_injective : Function.Injective crcShift := fun a₁ a₂ h =>
  BitVec.xor_eq_zero_iff.mp (eq_zero_of_crcShift_eq_zero _ (by rw [crcShift_xor, h, BitVec.xor_self]; rfl))

theorem crcStep_injective (b : Byte) : Function.Injective fun acc => crcStep acc b := by
  intro a₁ a₂ h
  simp only [crcStep, crcShifts_eq_iterate] at h
  exact (BitVec.xor_left_inj _).mp (crcShift_injective.iterate 8 h)

/-- Settles O15, by induction on the bytes. -/
theorem crcFoldIsInjectiveInTheAccumulator : Obligations.CrcFoldIsInjectiveInTheAccumulator := by
  intro d
  induction d with
  | nil => exact fun a₁ a₂ h => h
  | cons b d ih => exact fun a₁ a₂ h => crcStep_injective b (ih _ _ h)

/-! ### CRC_BYTE (R85) -/

theorem setWidth_eq_lowByte (w : Word) : w.setWidth 8 = lowByte w := BitVec.setWidth_eq_extractLsb' (by decide)

/-- The table form of a zero byte, seen byte by byte. -/
theorem bytes_of_crcStep_zero (acc : Word) :
    highByte (crcStep acc 0) = highByte (crcStep 0 (lowByte acc)) ∧
      lowByte (crcStep acc 0) = highByte acc ^^^ lowByte (crcStep 0 (lowByte acc)) := by
  rw [crcStep_eq_table acc 0, setWidth_eq_lowByte, BitVec.ofNat_eq_ofNat (n := 8), BitVec.xor_zero]
  generalize crcStep 0 (lowByte acc) = t
  constructor <;> ext i hi
  · have htop : acc.getLsbD (8 + (8 + i)) = false := acc.getLsbD_of_ge _ (by omega)
    simp [highByte, htop]
  · simp [highByte, lowByte]

/-- The entries of the table whose index is the XOR of their two bytes. -/
theorem table_fixed (b : Byte) (h : b = highByte (crcStep 0 b) ^^^ lowByte (crcStep 0 b)) : b = 0x00 ∨ b = 0x01 := by
  revert b
  decide

/-- The high byte of a fixed accumulator is that of its table entry, and its low byte is then the index. -/
theorem crcStep_zero_fixed_iff (acc : Word) : crcStep acc 0 = acc ↔ acc = 0x0000 ∨ acc = 0xC001 := by
  constructor
  · intro h
    obtain ⟨hhigh, hlow⟩ := bytes_of_crcStep_zero acc
    rw [h] at hhigh hlow
    rw [hhigh] at hlow
    rw [← joinBytes_high_low acc, hhigh]
    rcases table_fixed _ hlow with h0 | h1
    · rw [h0]; exact .inl (by decide)
    · rw [h1]; exact .inr (by decide)
  · rintro (rfl | rfl) <;> decide

/-- A run of CRC_BYTE folds `crc_step` over the bytes. -/
theorem foldl_exec_crcByte (d : List Byte) (s : State) :
    d.foldl (fun o b => andThen o (exec (.crcByte b))) (.next s) = .next { s with cacc := crcFold s.cacc d } := by
  induction d generalizing s with
  | nil => rfl
  | cons b d ih => rw [List.foldl_cons, andThen_next, exec_crcByte, ih, crcFold_cons]

/-- Settles O17: the decoder's row of opcode 0x02, and the fold that a block of CRC_BYTE computes. -/
theorem crcByteFeedsTheAccumulator : Obligations.CrcByteFeedsTheAccumulator :=
  ⟨decodeHost_append 0x02, exec_crcByte, by decide, by decide, by decide, crcStep_zero_fixed_iff,
    fun d s => foldl_exec_crcByte d { s with cacc := crcInitial }⟩

end Sys2Proof.Machine
end

section
/-! PROOFS. Receive windows over a run (41_generator.md R95, 42_framer.md): what an open window holds, the window of
`RXFRAME`, idle padding, the round trip of a generated frame, and single-bit errors. -/

namespace Sys2Proof.Machine

/-- Settles O38: a run without a reset or an end of frame keeps the window open, and has taken its line bytes. -/
theorem openWindowHoldsTheFrameBytes : Obligations.OpenWindowHoldsTheFrameBytes := by
  rintro ins rest s r hs - hfresh hins rfl
  obtain ⟨t, hrun, hrest, hopen⟩ := hfresh.openWindow.after_runSteps ins rest hs hins
  rw [List.nil_append] at hopen
  obtain ⟨-, ⟨hbytes, hemit⟩, hrxs, hrraw, hrovf⟩ := hopen
  refine ⟨t, hrun, hrest, hbytes, ?_, hrraw, hrovf, hemit⟩
  rw [Ne, ← hrxs]
  cases t.rxs <;> decide

/-! ### The window of `RXFRAME` (R78) -/

theorem lineByteOf_rxByte (b : Byte) : lineByteOf (lineCycle (.rxByte b)) = some b := by
  rw [lineCycle_rxByte]
  simp [lineByteOf]

theorem filterMap_lineByteOf_rxBytes (r : List Byte) : (rxBytes r).filterMap lineByteOf = r := by
  simp [rxBytes, List.filterMap_map, lineByteOf_rxByte]

/-- `RXBYTES` presents no command and no end of frame. -/
theorem rxBytes_quiet (r : List Byte) : ∀ i ∈ rxBytes r, resets i = false ∧ endsFrame i = false := by
  intro i hi
  rw [rxBytes_words] at hi
  obtain ⟨b, -, rfl⟩ := List.mem_map.mp hi
  exact ⟨rfl, by simp [endsFrame]⟩

/-- `RXFRAME r`, presented to a fresh window, is one window whose raw bytes are `r`. -/
theorem runSteps_rxFrame (r : List Byte) (rest : List Input) (s : State) (hs : s.inputs = rxFrame r ++ rest)
    (hwf : s.config.wf = true) (hfresh : FreshWindow s) :
    ∃ t, runSteps (r.length + 1) s = .next t ∧ t.inputs = rest ∧
      WindowReported s.config.maxRaw.toNat (rxPort s.out) r t := by
  have hm : s.config.maxRaw.toNat ≠ 0 := by
    have hmin : 3 ≤ s.config.maxRaw.toNat := of_decide_eq_true hwf
    omega
  have hs' : s.inputs = rxBytes r ++ lineCycle .rxEof :: rest := by rw [hs, rxFrame, List.append_assoc]; rfl
  obtain ⟨t, hrun, hrest, hrep⟩ :=
    hfresh.openWindow.reported_runSteps (rxBytes r) (lineCycle .rxEof) rest hm hs' (rxBytes_quiet r) rfl rfl
  have hraw : [] ++ (rxBytes r ++ [lineCycle .rxEof]).filterMap lineByteOf = r := by
    rw [List.nil_append, List.filterMap_append, filterMap_lineByteOf_rxBytes]
    exact List.append_nil r
  have hlen : (rxBytes r).length = r.length := List.length_map _
  rw [hraw] at hrep
  rw [hlen] at hrun
  exact ⟨t, hrun, hrest, hrep⟩

/-! ### Idle padding (C3) -/

theorem stripIdle_padding (k : Nat) (r : List Byte) : stripIdle (List.replicate k 0xFF ++ r) = stripIdle r := by
  induction k with
  | zero => rfl
  | succ k ih => exact ih

/-- A frame that does not start with `0xFF` has no padding. -/
theorem stripIdle_of_head (r : List Byte) (h : r.head? ≠ some 0xFF) : stripIdle r = r := by
  cases r with
  | nil => rfl
  | cons b r => exact if_neg fun hb => h (congrArg some hb)

section

variable {m k : Nat} {r : List Byte} (hr : r ≠ []) (hfit : k + r.length ≤ m)

include hfit

theorem stripIdle_take_padding :
    stripIdle ((List.replicate k 0xFF ++ r).take m) = stripIdle (r.take m) := by
  rw [List.take_of_length_le (by simpa using hfit), List.take_of_length_le (by omega), stripIdle_padding]

include hr

theorem windowVerdict_padding : windowVerdict m (List.replicate k 0xFF ++ r) = windowVerdict m r := by
  have hlen : r.length ≠ 0 := by simpa using hr
  have hlen' : (List.replicate k (0xFF : Byte) ++ r).length ≠ 0 := by simp [hr]
  rw [windowVerdict, windowVerdict, stripIdle_take_padding hfit, if_neg hlen, if_neg hlen']

/-- As long as nothing is dropped, R106's report is one of the stripped bytes. -/
theorem windowEvents_padding : windowEvents m (List.replicate k 0xFF ++ r) = windowEvents m r := by
  have hfull : decide (m < (List.replicate k (0xFF : Byte) ++ r).length) = decide (m < r.length) := by
    simp; omega
  rw [windowEvents, windowEvents, stripIdle_take_padding hfit, windowVerdict_padding hr hfit, hfull]

end

/-- Settles O42: both windows report what the source's functions give, and those give the same. -/
theorem idlePaddingDoesNotChangeTheReport : Obligations.IdlePaddingDoesNotChangeTheReport := by
  intro k r rest s hwf hfresh hr hfit
  obtain ⟨t, ht, -, hrep⟩ := runSteps_rxFrame r rest { s with inputs := rxFrame r ++ rest } rfl hwf hfresh
  obtain ⟨u, hu, -, hrep'⟩ := runSteps_rxFrame (List.replicate k 0xFF ++ r) rest
    { s with inputs := rxFrame (List.replicate k 0xFF ++ r) ++ rest } rfl hwf hfresh
  have hstrip := stripIdle_take_padding hfit
  have hlovf : u.lovf = t.lovf := by
    rw [hrep'.lovf, hrep.lovf]; simp; omega
  refine ⟨t, u, ht, by simpa using hu, ?_, ?_, hlovf, ?_, ?_, ?_⟩
  · rw [hrep'.events, hrep.events, windowEvents_padding hr hfit]
  · rw [hrep'.lverd, hrep.lverd, windowVerdict_padding hr hfit]
  · apply BitVec.eq_of_toNat_eq
    rw [hrep'.llen, hrep.llen, hstrip]
  · rw [hrep'.lrecv, hrep.lrecv, hstrip]
  · rw [hrep'.lcalc, hrep.lcalc, hstrip]

/-! ### The round trip (R95) -/

/-- The check field of a generated frame is right; only its length can fail (C1). -/
theorem validate_encodeFrame (d : List Byte) : validate (encodeFrame d) = true ↔ d ≠ [] := by
  rw [validate, frameBody_encodeFrame, lastTwo_encodeFrame, encodeFrame_length]
  cases d <;> simp

theorem windowVerdict_eq_ok_iff (m : Nat) (r : List Byte) :
    windowVerdict m r = .ok ↔ validate (stripIdle (r.take m)) = true := by
  have hlong : validate (stripIdle (r.take m)) = true → 3 ≤ (stripIdle (r.take m)).length := by
    intro h
    rw [validate, Bool.and_eq_true, decide_eq_true_iff] at h
    exact h.1
  have hle := stripIdle_length_le (r.take m)
  rw [List.length_take] at hle
  unfold windowVerdict
  split
  · next h0 => exact iff_of_false nofun fun h => by have := hlong h; omega
  · split
    · next hshort => exact iff_of_false nofun fun h => by have := hlong h; omega
    · split <;> simp_all

/-- Settles O40: the framer reports what the source's functions give for `encode(d)`, of which nothing is stripped or
dropped. -/
theorem generatedFrameIsReceivedIntact : Obligations.GeneratedFrameIsReceivedIntact := by
  refine ⟨fun d rest s hs hwf hfresh hd hhead hfit => ?received, validate_encodeFrame⟩
  have hne : d ≠ [] := List.length_pos_iff.mp hd
  obtain ⟨t, hrun, hrest, hrep⟩ := runSteps_rxFrame (encodeFrame d) rest s hs hwf hfresh
  have hstrip : stripIdle ((encodeFrame d).take s.config.maxRaw.toNat) = encodeFrame d := by
    rw [List.take_of_length_le (by rw [encodeFrame_length]; exact hfit), stripIdle_of_head]
    rwa [encodeFrame, List.head?_append_of_ne_nil _ hne]
  have hverdict : windowVerdict s.config.maxRaw.toNat (encodeFrame d) = .ok := by
    rw [windowVerdict_eq_ok_iff, hstrip, validate_encodeFrame]
    exact hne
  rw [encodeFrame_length] at hrun
  refine ⟨t, hrun, hrest, by rw [hrep.lverd, hverdict], ?_⟩
  rw [hrep.events, windowEvents, hverdict, hstrip, frameBody_encodeFrame, encodeFrame_length,
    decide_eq_false (Nat.not_lt.mpr hfit), List.append_assoc]

/-! ### Single-bit errors (R95)

`crcPoly` has an odd number of 1 bits, so an iteration keeps the parity of the accumulator, and a frame with the right
check field has an even number of 1 bits. One flipped bit makes that number odd, and stripping `0xFF` bytes leaves it odd,
however many a flip in the first byte makes padding. -/

/-- The lowest `k` bits of a word hold an odd number of 1s. -/
def oddBelow {n : Nat} (w : BitVec n) : Nat → Bool
  | 0 => false
  | k + 1 => oddBelow w k ^^ w.getLsbD k

/-- A word holds an odd number of 1s. -/
def isOdd {n : Nat} (w : BitVec n) : Bool := oddBelow w n

/-- A byte list holds an odd number of 1s. -/
def isOddList : List Byte → Bool
  | [] => false
  | b :: d => isOdd b ^^ isOddList d

theorem oddBelow_xor {n : Nat} (v w : BitVec n) (k : Nat) : oddBelow (v ^^^ w) k = (oddBelow v k ^^ oddBelow w k) := by
  induction k with
  | zero => rfl
  | succ k ih => simp only [oddBelow, ih, BitVec.getLsbD_xor, Bool.xor_assoc, Bool.xor_left_comm]

theorem isOdd_xor {n : Nat} (v w : BitVec n) : isOdd (v ^^^ w) = (isOdd v ^^ isOdd w) := oddBelow_xor v w n

theorem oddBelow_ushiftRight {n : Nat} (w : BitVec n) (m k : Nat) :
    oddBelow (w >>> m) k = (oddBelow w m ^^ oddBelow w (m + k)) := by
  induction k with
  | zero => simp [oddBelow]
  | succ k ih => rw [oddBelow, ih, BitVec.getLsbD_ushiftRight, Bool.xor_assoc]; rfl

theorem isOdd_ushiftRight_one (a : Word) : isOdd (a >>> 1) = (a.getLsbD 0 ^^ isOdd a) := by
  have htop : oddBelow a 17 = isOdd a := by rw [oddBelow, a.getLsbD_of_ge 16 (by decide), Bool.xor_false]; rfl
  have hbottom : oddBelow a 1 = a.getLsbD 0 := by rw [oddBelow, oddBelow, Bool.false_xor]
  rw [isOdd, oddBelow_ushiftRight, htop, hbottom]

theorem oddBelow_append {m n : Nat} (v : BitVec m) (w : BitVec n) (k : Nat) :
    oddBelow (v ++ w) (n + k) = (isOdd w ^^ oddBelow v k) := by
  have hlow (i : Nat) (hi : i ≤ n) : oddBelow (v ++ w) i = oddBelow w i := by
    induction i with
    | zero => rfl
    | succ i ih => rw [oddBelow, ih (by omega), BitVec.getLsbD_append, if_pos (by omega)]; rfl
  induction k with
  | zero => rw [Nat.add_zero, hlow n (Nat.le_refl n), oddBelow, Bool.xor_false, isOdd]
  | succ k ih =>
    rw [Nat.add_succ, oddBelow, ih, BitVec.getLsbD_append, if_neg (by omega), Nat.add_sub_cancel_left, Bool.xor_assoc]
    rfl

theorem isOdd_setWidth (b : Byte) : isOdd (b.setWidth 16) = isOdd b := by
  revert b; decide

theorem isOdd_joinBytes (hi lo : Byte) : isOdd (joinBytes hi lo) = (isOdd lo ^^ isOdd hi) := by
  rw [joinBytes_eq_append]
  exact oddBelow_append hi lo 8

theorem isOdd_crcShift (a : Word) : isOdd (crcShift a) = isOdd a := by
  have hpoly : isOdd crcPoly = true := by decide
  unfold crcShift
  split
  · next h1 => rw [isOdd_xor, isOdd_ushiftRight_one, h1, hpoly]; simp
  · next h0 => rw [isOdd_ushiftRight_one, Bool.eq_false_iff.mpr h0, Bool.false_xor]

theorem isOdd_crcStep (a : Word) (b : Byte) : isOdd (crcStep a b) = (isOdd a ^^ isOdd b) := by
  have hshifts (n : Nat) (a : Word) : isOdd (crcShifts n a) = isOdd a := by
    induction n generalizing a with
    | zero => rfl
    | succ n ih => rw [crcShifts_succ, ih, isOdd_crcShift]
  rw [crcStep, hshifts, isOdd_xor, isOdd_setWidth]

theorem isOdd_crcFold (a : Word) (d : List Byte) : isOdd (crcFold a d) = (isOdd a ^^ isOddList d) := by
  induction d generalizing a with
  | nil => simp [isOddList]
  | cons b d ih => rw [crcFold_cons, ih, isOdd_crcStep, isOddList, Bool.xor_assoc]

theorem isOdd_crc16 (d : List Byte) : isOdd (crc16 d) = isOddList d := by
  have hinit : isOdd crcInitial = false := by decide
  rw [crc16, isOdd_crcFold, hinit, Bool.false_xor]

theorem isOddList_append (d e : List Byte) : isOddList (d ++ e) = (isOddList d ^^ isOddList e) := by
  induction d with
  | nil => simp [isOddList]
  | cons b d ih => rw [List.cons_append, isOddList, ih, isOddList, Bool.xor_assoc]

theorem isOddList_stripIdle (r : List Byte) : isOddList (stripIdle r) = isOddList r := by
  have hidle : isOdd idleByte = false := by decide
  induction r with
  | nil => rfl
  | cons b r ih =>
    rw [stripIdle]
    split
    · next hb => rw [ih, isOddList, hb, hidle, Bool.false_xor]
    · rfl

/-- Flipping one bit of one byte of a list. -/
theorem isOddList_flip (d : List Byte) (j k : Nat) (hj : j < d.length) (hk : k < 8) :
    isOddList (d.modify j fun b => b ^^^ (1#8 <<< k)) = !isOddList d := by
  have hbit : isOdd (1#8 <<< k) = true := by interval_cases k <;> decide
  induction d generalizing j with
  | nil => simp at hj
  | cons b d ih =>
    cases j with
    | zero => simp [isOddList, isOdd_xor, hbit]
    | succ j => simp [isOddList, ih j (by simpa using hj)]

theorem isOddList_eq_body_xor_lastTwo (f : List Byte) (h : 2 ≤ f.length) :
    isOddList f = (isOddList (frameBody f) ^^ isOdd (lastTwo f)) := by
  obtain ⟨a, b, hlast⟩ : ∃ a b, f.drop (f.length - 2) = [a, b] :=
    List.length_eq_two.mp (by rw [List.length_drop]; omega)
  have hf : f = frameBody f ++ [a, b] := by rw [frameBody, ← hlast, List.take_append_drop]
  rw [hf, frameBody_append_two, lastTwo_append_two, isOdd_joinBytes, isOddList_append]
  simp [isOddList]

/-- A frame with the right check field has an even number of 1 bits. -/
theorem isOddList_of_validate (f : List Byte) (h : validate f = true) : isOddList f = false := by
  rw [validate, Bool.and_eq_true, decide_eq_true_iff, beq_iff_eq] at h
  obtain ⟨hlen, hcheck⟩ := h
  rw [isOddList_eq_body_xor_lastTwo f (by omega), hcheck, isOdd_crc16, Bool.xor_self]

theorem validate_eq_false_of_odd (f : List Byte) (h : isOddList f = true) : validate f = false := by
  rw [Bool.eq_false_iff]
  intro hvalid
  rw [isOddList_of_validate f hvalid] at h
  exact Bool.false_ne_true h

theorem isOddList_flipped_encodeFrame (d : List Byte) (j k : Nat) (hd : 1 ≤ d.length) (hj : j < d.length + 2)
    (hk : k < 8) : isOddList ((encodeFrame d).modify j fun b => b ^^^ (1#8 <<< k)) = true := by
  have hvalid : validate (encodeFrame d) = true := (validate_encodeFrame d).mpr (List.length_pos_iff.mp hd)
  rw [isOddList_flip _ j k (by rw [encodeFrame_length]; exact hj) hk, isOddList_of_validate _ hvalid]
  rfl

/-- Settles O41: a flipped frame has an odd number of 1 bits, with its padding and without it, and a valid frame has an
even number. -/
theorem singleBitErrorIsDetected : Obligations.SingleBitErrorIsDetected := by
  refine ⟨fun d j k hd hj hk => ?validate, fun d j k rest s hd _ hfit hj hk hwf hfresh hs => ?framer⟩
  case validate => exact validate_eq_false_of_odd _ (isOddList_flipped_encodeFrame d j k hd hj hk)
  case framer =>
    have hodd := isOddList_flipped_encodeFrame d j k hd hj hk
    have hlen : ((encodeFrame d).modify j fun b => b ^^^ (1#8 <<< k)).length = d.length + 2 := by
      rw [List.length_modify, encodeFrame_length]
    obtain ⟨t, hrun, hrest, hrep⟩ := runSteps_rxFrame _ rest s hs hwf hfresh
    rw [hlen] at hrun
    refine ⟨t, hrun, hrest, _, hrep.lverd, ?_⟩
    rw [Ne, windowVerdict_eq_ok_iff, List.take_of_length_le (hlen ▸ hfit),
      validate_eq_false_of_odd _ ((isOddList_stripIdle _).trans hodd)]
    exact Bool.false_ne_true

end Sys2Proof.Machine
end

section
/-! PROOFS. What one instruction may read and write (10_state.md R22, R45), and the events of one step (R57, R118). -/

namespace Sys2Proof.Machine

/-! ### Everything a host command can do -/

/-- What a host command makes of the state `s`, command by command; where it raises an error, that is all it does but
for the response of a reserved read (R121). -/
inductive HostEffect (s : State) : Instr → State → Prop
  | nop : HostEffect s .nop s
  | crcInit : HostEffect s .crcInit { s with cacc := 0xFFFF }
  | crcByte (b : Byte) : HostEffect s (.crcByte b) { s with cacc := crcStep s.cacc b }
  | txStart (h : s.txs = .idle) : HostEffect s .txStart { s with txs := .payload, tacc := 0xFFFF }
  | txByte (b : Byte) (h : s.txs = .payload) :
    HostEffect s (.txByte b) { s with tacc := crcStep s.tacc b, out := s.out ++ [.tx b] }
  | txEnd (h : s.txs = .payload) :
    HostEffect s .txEnd { s with txs := .idle, out := s.out ++ [.tx (lowByte s.tacc), .tx (highByte s.tacc)] }
  | outOfSequence (i : Instr) (h : OutOfSequence i s) : HostEffect s i (withFirstError .seq s)
  | regRead (n : Byte) (r : Reg) (h : regOfNumber n = some r) :
    HostEffect s (.regRead n) { s with out := s.out ++ [.response (regValue s r)] }
  | reservedRead (n : Byte) (h : regOfNumber n = none) :
    HostEffect s (.regRead n) (withFirstError .badReg { s with out := s.out ++ [.response 0] })
  | reset : HostEffect s .reset (applyReset s)

theorem exists_hostEffect (i : Instr) (s : State) (hi : i.isHost = true) : ∃ t, HostEffect s i t := by
  cases i with
  | nop => exact ⟨_, .nop⟩
  | crcInit => exact ⟨_, .crcInit⟩
  | crcByte b => exact ⟨_, .crcByte b⟩
  | txStart =>
    cases h : s.txs with
    | idle => exact ⟨_, .txStart h⟩
    | payload => exact ⟨_, .outOfSequence _ (.inl ⟨rfl, h⟩)⟩
  | txByte b =>
    cases h : s.txs with
    | idle => exact ⟨_, .outOfSequence _ (.inr (.inl ⟨⟨b, rfl⟩, h⟩))⟩
    | payload => exact ⟨_, .txByte b h⟩
  | txEnd =>
    cases h : s.txs with
    | idle => exact ⟨_, .outOfSequence _ (.inr (.inr ⟨rfl, h⟩))⟩
    | payload => exact ⟨_, .txEnd h⟩
  | regRead n =>
    cases h : regOfNumber n with
    | some r => exact ⟨_, .regRead n r h⟩
    | none => exact ⟨_, .reservedRead n h⟩
  | reset => exact ⟨_, .reset⟩
  | lineIdle | rxByte b | rxEof | rxByteEof b => simp [Instr.isHost, Instr.isLine] at hi

theorem HostEffect.exec_eq {i : Instr} {s t : State} (h : HostEffect s i t) : exec i s = .next t := by
  cases h with
  | nop => exact exec_nop s
  | crcInit => exact exec_crcInit s
  | crcByte b => exact exec_crcByte b s
  | txStart h => exact exec_txStart_idle s h
  | txByte b h => exact exec_txByte_payload b s h
  | txEnd h => exact exec_txEnd_payload s h
  | outOfSequence _ h => rw [exec_outOfSequence i s h, raiseCmdError_eq]
  | regRead n r h => exact exec_regRead_some n r s h
  | reservedRead n h => rw [exec_regRead_none n s h, raiseCmdError_eq]
  | reset => exact exec_reset s

theorem hostEffect_of_exec (i : Instr) (s t : State) (hi : i.isHost = true) (h : exec i s = .next t) :
    HostEffect s i t := by
  obtain ⟨t', heff⟩ := exists_hostEffect i s hi
  obtain rfl : t' = t := by rw [heff.exec_eq] at h; injection h
  exact heff

theorem isHost_of_not_isLine {i : Instr} (h : i.isLine = false) : i.isHost = true := by
  rw [Instr.isHost, h]
  rfl

/-- `SEQ` is raised by generator commands alone. -/
theorem OutOfSequence.isGeneratorCommand {i : Instr} {s : State} (h : OutOfSequence i s) : IsGeneratorCommand i :=
  h.imp And.left (.imp And.left And.left)

/-! ### The events of one step (R57, R118 (d)) -/

/-- What one command may emit: TX bytes, at most two, or one response word. -/
abbrev CommandEvents (es : List PortEvent) : Prop :=
  (∃ bs : List Byte, es = bs.map .tx ∧ bs.length ≤ 2) ∨ ∃ w, es = [.response w]

theorem commandEvents_nil : CommandEvents [] := .inl ⟨[], rfl, Nat.zero_le 2⟩

theorem HostEffect.out {i : Instr} {s t : State} (h : HostEffect s i t) :
    ∃ es, t.out = s.out ++ es ∧ CommandEvents es := by
  have hsilent {u : State} (hu : u.out = s.out) : ∃ es, u.out = s.out ++ es ∧ CommandEvents es :=
    ⟨[], by rw [hu, List.append_nil], commandEvents_nil⟩
  cases h with
  | nop | crcInit | crcByte | txStart | outOfSequence | reset => exact hsilent rfl
  | txByte b => exact ⟨_, rfl, .inl ⟨[b], rfl, by simp⟩⟩
  | txEnd => exact ⟨_, rfl, .inl ⟨[lowByte s.tacc, highByte s.tacc], rfl, by simp⟩⟩
  | regRead n r => exact ⟨_, rfl, .inr ⟨_, rfl⟩⟩
  | reservedRead => exact ⟨_, rfl, .inr ⟨_, rfl⟩⟩

theorem performCommand_out (c : Option HostWord) (s t : State) (h : performCommand c s = .next t) :
    ∃ es, t.out = s.out ++ es ∧ CommandEvents es := by
  cases c with
  | none => cases h; exact ⟨[], by simp, commandEvents_nil⟩
  | some w =>
    cases hw : decodeHost w with
    | error e =>
      rw [performCommand_error w e s hw] at h
      cases h
      exact ⟨[], by simp, commandEvents_nil⟩
    | ok i =>
      rw [performCommand_ok w i s hw] at h
      exact (hostEffect_of_exec i s t (decodeHost_isHost w i hw) h).out

/-- A line event emits on the RX frame output alone: the byte that leaves the hold line, and FRAME_END. -/
theorem exec_line_out (i : Instr) (s t : State) (hi : i.isLine = true) (h : exec i s = .next t) :
    ∃ es : List FrameEvent, t.out = s.out ++ es.map .rx ∧ es.length ≤ 2 := by
  cases i with
  | lineIdle => cases h; exact ⟨[], by simp⟩
  | rxByte b =>
    cases h
    obtain ⟨es, hout, hlen⟩ := takeByte_out b s
    exact ⟨es, hout, by omega⟩
  | rxEof => cases h; exact ⟨[_], by rw [endOfFrame_out]; rfl, by simp⟩
  | rxByteEof b =>
    cases h
    obtain ⟨es, hout, hlen⟩ := takeByte_out b s
    exact ⟨es ++ [_], by rw [endOfFrame_out, hout, List.map_append, List.append_assoc]; rfl, by simp; omega⟩
  | nop | crcInit | crcByte b | txStart | txByte b | txEnd | regRead n | reset => simp [Instr.isLine] at hi

/-- Settles O34: the line event of a cycle appends RX frame events, and its command appends its own after them; the
hardware reset emits nothing. -/
theorem stepAppendsLineEventsThenCommandEvents : Obligations.StepAppendsLineEventsThenCommandEvents := by
  intro s t h
  rw [step] at h
  cases hin : nextInput s with
  | hardwareReset =>
    rw [hin] at h
    cases h
    exact ⟨[], [], by simp, by simp, commandEvents_nil⟩
  | cycle l c =>
    obtain ⟨u, t', hu, ht', hp⟩ := performInput_cycle_cases l c (takeInput s)
    obtain rfl : t' = t := by rw [hin, hp] at h; injection h
    obtain ⟨rx, hrx, hlen⟩ := exec_line_out _ _ u (decodeLine_isLine l) hu
    obtain ⟨es, hes, hcmd⟩ := performCommand_out c u t' ht'
    exact ⟨rx, es, by rw [hes, hrx, takeInput_out], hlen, hcmd⟩

/-! ### What an instruction may write (R22) -/

theorem Generator.next_txs (g : Generator) (i : Instr) (hr : i ≠ .reset) (hs : i ≠ .txStart) (he : i ≠ .txEnd) :
    (g.next i).txs = g.txs := by
  unfold Generator.next
  split <;> simp_all

theorem Generator.next_tacc (g : Generator) (i : Instr) (hr : i ≠ .reset) (hs : i ≠ .txStart)
    (hb : ∀ b, i ≠ .txByte b) : (g.next i).tacc = g.tacc := by
  unfold Generator.next
  split <;> simp_all

/-- TXS and TACC after an instruction are the generator's own step (R94). -/
theorem exec_generator (i : Instr) (s t : State) (h : exec i s = .next t) :
    t.txs = ((generatorOf s).next i).txs ∧ t.tacc = ((generatorOf s).next i).tacc := by
  have hgen : generatorOf t = (generatorOf s).next i := congrArg Prod.fst (exec_txSide i s t h)
  rw [← hgen]
  exact ⟨rfl, rfl⟩

theorem exec_cacc (i : Instr) (s t : State) (hr : i ≠ .reset) (hi : i ≠ .crcInit) (hb : ∀ b, i ≠ .crcByte b)
    (h : exec i s = .next t) : t.cacc = s.cacc := by
  cases hline : i.isLine with
  | true =>
    cases i with
    | lineIdle | rxByte b | rxEof | rxByteEof b => cases h; simp
    | nop | crcInit | crcByte b | txStart | txByte b | txEnd | regRead n | reset => simp [Instr.isLine] at hline
  | false =>
    cases hostEffect_of_exec i s t (isHost_of_not_isLine hline) h with
    | crcInit => exact absurd rfl hi
    | crcByte b => exact absurd rfl (hb b)
    | reset => exact absurd rfl hr
    | nop | txStart | txByte | txEnd | outOfSequence | regRead | reservedRead => rfl

theorem exec_lastWindow (i : Instr) (s t : State) (hr : i ≠ .reset) (he : i ≠ .rxEof) (hbe : ∀ b, i ≠ .rxByteEof b)
    (h : exec i s = .next t) :
    t.lverd = s.lverd ∧ t.lovf = s.lovf ∧ t.llen = s.llen ∧ t.lrecv = s.lrecv ∧ t.lcalc = s.lcalc ∧
      t.fcnt = s.fcnt := by
  cases hline : i.isLine with
  | true =>
    cases i with
    | lineIdle | rxByte b => cases h; simp
    | rxEof => exact absurd rfl he
    | rxByteEof b => exact absurd rfl (hbe b)
    | nop | crcInit | crcByte b | txStart | txByte b | txEnd | regRead n | reset => simp [Instr.isLine] at hline
  | false =>
    rw [(exec_commandFrame i s t (isHost_of_not_isLine hline) hr h).eq]
    exact ⟨rfl, rfl, rfl, rfl, rfl, rfl⟩

theorem exec_errors (i : Instr) (s t : State) (hr : i ≠ .reset) (hg : ¬ IsGeneratorCommand i)
    (hn : ∀ n, i ≠ .regRead n) (h : exec i s = .next t) : t.cerr = s.cerr ∧ t.ecode = s.ecode := by
  cases hline : i.isLine with
  | true =>
    obtain ⟨-, -, hcerr, hecode⟩ := exec_line_frame i s t hline h
    exact ⟨hcerr, hecode⟩
  | false =>
    cases hostEffect_of_exec i s t (isHost_of_not_isLine hline) h with
    | nop | crcInit | crcByte | txStart | txByte | txEnd => exact ⟨rfl, rfl⟩
    | outOfSequence _ hseq => exact absurd hseq.isGeneratorCommand hg
    | regRead n | reservedRead n => exact absurd rfl (hn n)
    | reset => exact absurd rfl hr

/-- No instruction changes MAX_RAW or what is presented next. -/
theorem exec_config_inputs (i : Instr) (s t : State) (h : exec i s = .next t) :
    t.config = s.config ∧ t.inputs = s.inputs := by
  cases hline : i.isLine with
  | true =>
    obtain ⟨hcfg, hin, -, -⟩ := exec_line_frame i s t hline h
    exact ⟨hcfg, hin⟩
  | false =>
    cases hostEffect_of_exec i s t (isHost_of_not_isLine hline) h <;> exact ⟨rfl, rfl⟩

theorem exec_host_rxPort (i : Instr) (s t : State) (hi : i.isHost = true) (h : exec i s = .next t) :
    rxPort t.out = rxPort s.out := by
  by_cases hr : i = .reset
  · subst hr; cases h; rfl
  · exact (exec_commandFrame i s t hi hr h).rxPort_eq

/-- Settles O31: each clause is the frame of one part of the state. -/
theorem instructionsWriteOnlyTheirElements : Obligations.InstructionsWriteOnlyTheirElements := by
  intro i s t h
  obtain ⟨hcfg, hin⟩ := exec_config_inputs i s t h
  obtain ⟨htxs, htacc⟩ := exec_generator i s t h
  refine ⟨hcfg, hin, fun hr hi hb => exec_cacc i s t hr hi hb h, fun hr hs he => ?txs, fun hr hs hb => ?tacc,
    fun hi hr => (exec_commandFrame i s t hi hr h).sameFramer, fun hr he hbe => exec_lastWindow i s t hr he hbe h,
    fun hr hs hb he hn => exec_errors i s t hr (by simp [IsGeneratorCommand, hs, hb, he]) hn h, fun hi => ?linePorts,
    fun hi => exec_host_rxPort i s t hi h⟩
  case txs => rw [htxs, Generator.next_txs _ i hr hs he]; rfl
  case tacc => rw [htacc, Generator.next_tacc _ i hr hs hb]; rfl
  case linePorts =>
    obtain ⟨es, hout, -⟩ := exec_line_out i s t hi h
    simp [hout]

/-! ### What an instruction may read (R45) -/

/-- `s` with other values in the elements that only report: CERR, ECODE, LVERD and LOVF. -/
def withReports (c : Bool) (e : Option CmdError) (v : Option Verdict) (o : Bool) (s : State) : State :=
  { s with cerr := c, ecode := e, lverd := v, lovf := o }

/-- `u` is `t` but for those elements. -/
def SameButReports (t u : State) : Prop :=
  u = { t with cerr := u.cerr, ecode := u.ecode, lverd := u.lverd, lovf := u.lovf }

section

variable {c : Bool} {e : Option CmdError} {v : Option Verdict} {o : Bool}

theorem regOfNumber_eq_status (n : Byte) (h : regOfNumber n = some .status) : n = 0x00 := by
  revert n; decide

/-- Every register but STATUS is read from an element of its own. -/
theorem regValue_withReports (s : State) {r : Reg} (hr : r ≠ .status) :
    regValue (withReports c e v o s) r = regValue s r := by
  cases r with
  | status => exact absurd rfl hr
  | cacc | tacc | racc | rlen | rraw | llen | lrecv | lcalc | fcnt | param => rfl

theorem HostEffect.withReports {i : Instr} {s t : State} (h : HostEffect s i t) (hi : i ≠ .regRead 0x00) :
    ∃ u, HostEffect (withReports c e v o s) i u ∧ SameButReports t u := by
  cases h with
  | nop => exact ⟨_, .nop, rfl⟩
  | crcInit => exact ⟨_, .crcInit, rfl⟩
  | crcByte b => exact ⟨_, .crcByte b, rfl⟩
  | txStart h => exact ⟨_, .txStart h, rfl⟩
  | txByte b h => exact ⟨_, .txByte b h, rfl⟩
  | txEnd h => exact ⟨_, .txEnd h, rfl⟩
  | outOfSequence _ h => exact ⟨_, .outOfSequence i h, rfl⟩
  | regRead n r h =>
    have hr : r ≠ .status := fun hr => hi (congrArg _ (regOfNumber_eq_status n (hr ▸ h)))
    refine ⟨_, .regRead n r h, ?_⟩
    rw [regValue_withReports s hr]
    rfl
  | reservedRead n h => exact ⟨_, .reservedRead n h, rfl⟩
  | reset => exact ⟨_, .reset, rfl⟩

theorem frameByte_withReports (b : Byte) (s : State) :
    frameByte b (withReports c e v o s) = withReports c e v o (frameByte b s) := by
  cases hh : s.hold with
  | empty => rw [frameByte_empty b s hh]; exact frameByte_empty b _ hh
  | one a => rw [frameByte_one b a s hh]; exact frameByte_one b a _ hh
  | two a a' => rw [frameByte_two b a a' s hh]; exact frameByte_two b a a' _ hh

theorem takeByte_withReports (b : Byte) (s : State) :
    takeByte b (withReports c e v o s) = withReports c e v o (takeByte b s) := by
  by_cases hfull : s.rraw = s.config.maxRaw
  · rw [takeByte_full b s hfull]
    exact takeByte_full b _ hfull
  · cases hx : s.rxs with
    | hunt =>
      by_cases hb : b = 0xFF
      · rw [hb, takeByte_padding s hfull hx]
        exact takeByte_padding (withReports c e v o s) hfull hx
      · rw [takeByte_first b s hfull hx hb]
        exact takeByte_first b (withReports c e v o s) hfull hx hb
    | frame =>
      rw [takeByte_frame b s hfull hx, ← frameByte_withReports]
      exact takeByte_frame b (withReports c e v o s) hfull hx

theorem exec_line_withReports (i : Instr) (s : State) (hi : i.isLine = true) :
    ∃ t u, exec i s = .next t ∧ exec i (withReports c e v o s) = .next u ∧ SameButReports t u := by
  cases i with
  | lineIdle => exact ⟨_, _, rfl, rfl, rfl⟩
  | rxByte b =>
    exact ⟨takeByte b s, withReports c e v o (takeByte b s), rfl, by rw [exec_rxByte, takeByte_withReports], rfl⟩
  | rxEof => exact ⟨_, _, rfl, rfl, rfl⟩
  | rxByteEof b =>
    exact ⟨endOfFrame (takeByte b s), endOfFrame (withReports c e v o (takeByte b s)), rfl,
      by rw [exec_rxByteEof, takeByte_withReports], rfl⟩
  | nop | crcInit | crcByte b | txStart | txByte b | txEnd | regRead n | reset => simp [Instr.isLine] at hi

end

/-- Settles O30: no meaning reads CERR, ECODE, LVERD or LOVF but to raise an error, and of the registers only STATUS
shows them. -/
theorem nothingDependsOnTheReportedErrors : Obligations.NothingDependsOnTheReportedErrors := by
  intro i s c e v o hi
  cases hline : i.isLine with
  | true => exact exec_line_withReports i s hline
  | false =>
    obtain ⟨t, ht⟩ := exists_hostEffect i s (isHost_of_not_isLine hline)
    obtain ⟨u, hu, hsame⟩ := ht.withReports hi
    exact ⟨t, u, ht.exec_eq, hu.exec_eq, hsame⟩

end Sys2Proof.Machine
end

section
/-! PROOFS. The invariants of 10_state.md R43: they hold at reset, and every line event and every command keeps them. -/

namespace Sys2Proof.Machine

/-! ### The open window, R43 (a) to (f), by its frame bytes -/

/-- The window of `s` has the frame bytes `f`: what R43 (a) to (f) say of RXS, HOLD, RACC and the counters. -/
structure WindowHolds (f : List Byte) (s : State) : Prop where
  bytes : FrameBytes s f
  rxs : s.rxs = .hunt ↔ f = []
  bounds : s.rlen.toNat ≤ s.rraw.toNat ∧ s.rraw.toNat ≤ s.config.maxRaw.toNat
  overflow : s.rovf = true → s.rraw = s.config.maxRaw

theorem FrameBytes.of_sameFramer {f : List Byte} {s t : State} (h : FrameBytes s f) (hf : SameFramer s t) :
    FrameBytes t f := by
  obtain ⟨hlen, hhold, hracc⟩ := h
  obtain ⟨-, -, hracc', hhold', hrlen', -, -⟩ := hf
  exact ⟨hrlen' ▸ hlen, hhold' ▸ hhold, hracc' ▸ hracc⟩

theorem WindowHolds.of_sameFramer {f : List Byte} {s t : State} (h : WindowHolds f s) (hf : SameFramer s t) :
    WindowHolds f t := by
  have ⟨hcfg, hrxs, _, _, hrlen, hrraw, hrovf⟩ := hf
  exact ⟨h.bytes.of_sameFramer hf, hrxs ▸ h.rxs, hrlen ▸ hrraw ▸ hcfg ▸ h.bounds,
    hrovf ▸ hrraw ▸ hcfg ▸ h.overflow⟩

/-- HCNT (R43 (c)) is the number of frame bytes, up to two. -/
theorem FrameBytes.holdList_length {f : List Byte} {s : State} (h : FrameBytes s f) :
    (holdList s.hold).length = min s.rlen.toNat 2 := by
  obtain ⟨hlen, heq, -⟩ := h
  have hcount := congrArg List.length heq
  rw [List.length_append, frameBody_length] at hcount
  omega

theorem windowHolds_iff (s : State) : (∃ f, WindowHolds f s) ↔ WindowInv s ∧ ∃ f, FrameBytes s f := by
  constructor
  · rintro ⟨f, hbytes, hrxs, hbounds, hovf⟩
    have ⟨hlen, _, _⟩ := hbytes
    refine ⟨⟨fun hx => ?hunt, fun hx => ?frame, hbytes.holdList_length, hbounds, hovf⟩, f, hbytes⟩
    case hunt =>
      rcases hbytes.hold_cases with ⟨rfl, hhold⟩ | ⟨a, rfl, -⟩ | ⟨a, c, hf, -⟩
      · exact ⟨BitVec.eq_of_toNat_eq hlen.symm, hhold⟩
      · simp [hx] at hrxs
      · rw [hrxs.mp hx] at hf; simp at hf
    case frame =>
      rw [← hlen]
      exact List.length_pos_iff.mpr fun hf => by simp [hrxs.mpr hf] at hx
  · rintro ⟨⟨hhunt, hframe, -, hbounds, hovf⟩, f, hbytes⟩
    have ⟨hlen, _, _⟩ := hbytes
    refine ⟨f, hbytes, ?_, hbounds, hovf⟩
    rw [← List.length_eq_zero_iff, hlen]
    cases hx : s.rxs with
    | hunt => simp [hhunt hx]
    | frame => have := hframe hx; simp; omega

theorem FreshWindow.windowHolds {s : State} (h : FreshWindow s) : WindowHolds [] s := by
  obtain ⟨hrxs, hracc, hhold, hrlen, hrraw, hrovf⟩ := h
  refine ⟨⟨?_, ?_, hracc⟩, iff_of_true hrxs rfl, ?_, ?_⟩
  · rw [hrlen]; rfl
  · rw [hhold]; rfl
  · simp [hrlen, hrraw]
  · simp [hrovf]

/-! ### A line byte keeps the window -/

/-- A push takes one frame byte more, whatever has been emitted before. -/
theorem FrameBytes.after_frameByte {f : List Byte} {s : State} (h : FrameBytes s f) (b : Byte)
    (hroom : s.rlen.toNat + 1 < 2 ^ 16) : FrameBytes (frameByte b s) (f ++ [b]) := by
  obtain ⟨out, hout⟩ : ∃ out, rxPort out = (frameBody f).map .byte := ⟨_, rxPort_map_rx _⟩
  have hsame : SameFramer { s with out := out } s := ⟨rfl, rfl, rfl, rfl, rfl, rfl, rfl⟩
  have htaken : FrameTaken [] f { s with out := out } := ⟨h, hout⟩
  exact (htaken.after_frameByte b hroom).bytes.of_sameFramer (frameByte_sameFraming b hsame).framer

theorem WindowHolds.after_takeByte {f : List Byte} {s : State} (h : WindowHolds f s) (b : Byte) :
    ∃ f', WindowHolds f' (takeByte b s) := by
  have ⟨hbytes, hrxs, ⟨hlen, hmax⟩, hovf⟩ := h
  by_cases hfull : s.rraw = s.config.maxRaw
  · rw [takeByte_full b s hfull]
    exact ⟨f, hbytes, hrxs, ⟨hlen, hmax⟩, fun _ => hfull⟩
  have hnotfull : s.rraw.toNat ≠ s.config.maxRaw.toNat := fun heq => hfull (BitVec.eq_of_toNat_eq heq)
  have hbound : s.config.maxRaw.toNat < 2 ^ 16 := s.config.maxRaw.isLt
  have hraw : (s.rraw + 1).toNat = s.rraw.toNat + 1 := BitVec.toNat_add_of_lt (by simp; omega)
  have hovf' : s.rovf = true → s.rraw + 1 = s.config.maxRaw := fun ho => absurd (hovf ho) hfull
  have hmax' : (s.rraw + 1).toNat ≤ s.config.maxRaw.toNat := by omega
  cases hx : s.rxs with
  | hunt =>
    by_cases hb : b = 0xFF
    · rw [hb, takeByte_padding s hfull hx]
      exact ⟨f, hbytes, hrxs, ⟨by show s.rlen.toNat ≤ (s.rraw + 1).toNat; omega, hmax'⟩, hovf'⟩
    · rw [takeByte_first b s hfull hx hb]
      obtain rfl := hrxs.mp hx
      obtain ⟨-, -, hracc⟩ := hbytes
      refine ⟨[b], ⟨rfl, rfl, hracc⟩, by simp, ⟨?_, hmax'⟩, hovf'⟩
      rw [hraw]
      exact Nat.le_add_left 1 _
  | frame =>
    rw [takeByte_frame b s hfull hx]
    have hcount : s.rlen.toNat + 1 < 2 ^ 16 := by omega
    have hpushed := FrameBytes.after_frameByte (s := { s with rraw := s.rraw + 1 }) hbytes b hcount
    have hrlen : (s.rlen + 1).toNat = s.rlen.toNat + 1 := BitVec.toNat_add_of_lt hcount
    refine ⟨f ++ [b], hpushed, ?_, ?_, ?_⟩
    · simp [frameByte, hx]
    · simp only [frameByte, holdPush_rlen, holdPush_rraw, holdPush_config]
      exact ⟨by omega, hmax'⟩
    · simpa only [frameByte, holdPush_rovf, holdPush_rraw, holdPush_config] using hovf'

/-! ### The report of a window, R43 (h) -/

theorem WindowHolds.verdictInv_endOfFrame {f : List Byte} {s : State} (h : WindowHolds f s) :
    VerdictInv (endOfFrame s) := by
  obtain ⟨hle, -⟩ := h.bounds
  unfold VerdictInv
  rw [endOfFrame_lverd, endOfFrame_llen, endOfFrame_lrecv, endOfFrame_lcalc]
  rcases classify_cases s with ⟨h0, hv⟩ | ⟨-, h3, hv⟩ | ⟨-, h3, hcheck, hv⟩ | ⟨-, h3, -, hv⟩ <;> rw [hv]
  · have hnone : s.rraw.toNat = 0 := congrArg BitVec.toNat h0
    exact ⟨by simp; omega, nofun⟩
  · exact ⟨by simp; omega, nofun⟩
  · exact ⟨by simp [h3], fun _ => by simp [Verdict.reportsCheck, hcheck]⟩
  · exact ⟨by simp [h3], nofun⟩

/-! ### All of R43 -/

theorem inv_iff (s : State) : Inv s ↔ (∃ f, WindowHolds f s) ∧ ErrorInv s ∧ VerdictInv s := by
  rw [windowHolds_iff, and_assoc]
  exact ⟨fun ⟨hw, hf, he, hv⟩ => ⟨hw, hf, he, hv⟩, fun ⟨hw, hf, he, hv⟩ => ⟨hw, hf, he, hv⟩⟩

theorem inv_applyReset (s : State) : Inv (applyReset s) := by
  rw [inv_iff]
  have hfresh : FreshWindow (applyReset s) := ⟨rfl, rfl, rfl, rfl, rfl, rfl⟩
  exact ⟨⟨[], hfresh.windowHolds⟩, iff_of_true rfl rfl, by simp [VerdictInv]⟩

theorem Inv.withInputs {s : State} (h : Inv s) (ins : List Input) : Inv { s with inputs := ins } := by
  rw [inv_iff] at h ⊢
  obtain ⟨⟨f, hf⟩, he, hv⟩ := h
  exact ⟨⟨f, hf.of_sameFramer ⟨rfl, rfl, rfl, rfl, rfl, rfl, rfl⟩⟩, he, hv⟩

theorem Inv.after_takeByte {s : State} (h : Inv s) (b : Byte) : Inv (takeByte b s) := by
  rw [inv_iff] at h ⊢
  obtain ⟨⟨f, hf⟩, he, hv⟩ := h
  exact ⟨hf.after_takeByte b, by simpa [ErrorInv] using he, by simpa [VerdictInv] using hv⟩

theorem Inv.after_endOfFrame {s : State} (h : Inv s) : Inv (endOfFrame s) := by
  rw [inv_iff] at h ⊢
  obtain ⟨⟨f, hf⟩, he, -⟩ := h
  exact ⟨⟨[], (freshWindow_endOfFrame s).windowHolds⟩, he, hf.verdictInv_endOfFrame⟩

theorem Inv.after_line (i : Instr) {s t : State} (h : Inv s) (hi : i.isLine = true) (hx : exec i s = .next t) :
    Inv t := by
  cases i with
  | lineIdle => cases hx; exact h
  | rxByte b => cases hx; exact h.after_takeByte b
  | rxEof => cases hx; exact h.after_endOfFrame
  | rxByteEof b => cases hx; exact (h.after_takeByte b).after_endOfFrame
  | nop | crcInit | crcByte b | txStart | txByte b | txEnd | regRead n | reset => simp [Instr.isLine] at hi

/-- Recording a command error sets CERR and an error code together. -/
theorem ErrorInv.withFirstError {s : State} (h : ErrorInv s) (e : CmdError) : ErrorInv (withFirstError e s) := by
  unfold ErrorInv Machine.withFirstError at *
  cases hc : s.cerr <;> simp_all

/-- A command that keeps to the frame keeps the invariants if it keeps that of CERR and ECODE. -/
theorem Inv.of_commandFrame {s t : State} (h : Inv s) (hf : CommandFrame s t) (he : ErrorInv t) : Inv t := by
  rw [inv_iff] at h ⊢
  obtain ⟨⟨f, hw⟩, -, hv⟩ := h
  refine ⟨⟨f, hw.of_sameFramer hf.sameFramer⟩, he, ?_⟩
  rw [hf.eq]
  exact hv

theorem HostEffect.errorInv {i : Instr} {s t : State} (h : HostEffect s i t) (he : ErrorInv s) : ErrorInv t := by
  cases h with
  | nop | crcInit | crcByte | txStart | txByte | txEnd | regRead => exact he
  | outOfSequence => exact he.withFirstError _
  | reservedRead => exact ErrorInv.withFirstError (s := { s with out := _ }) he _
  | reset => exact (inv_applyReset s).error

theorem Inv.after_command (c : Option HostWord) {s t : State} (h : Inv s) (hx : performCommand c s = .next t) :
    Inv t := by
  cases c with
  | none => cases hx; exact h
  | some w =>
    cases hw : decodeHost w with
    | error e =>
      rw [performCommand_error w e s hw] at hx
      cases hx
      exact h.of_commandFrame (raiseCmdError_commandFrame e s) (raiseCmdError_eq e s ▸ h.error.withFirstError e)
    | ok i =>
      rw [performCommand_ok w i s hw] at hx
      by_cases hr : i = .reset
      · subst hr; cases hx; exact inv_applyReset s
      · have hi := decodeHost_isHost w i hw
        exact h.of_commandFrame (exec_commandFrame i s t hi hr hx) ((hostEffect_of_exec i s t hi hx).errorInv h.error)

theorem Inv.after_performInput (i : Input) {s t : State} (h : Inv s) (hx : performInput i s = .next t) : Inv t := by
  cases i with
  | hardwareReset => cases hx; exact inv_applyReset s
  | cycle l c =>
    obtain ⟨u, t', hu, ht', hp⟩ := performInput_cycle_cases l c s
    obtain rfl : t' = t := by rw [hp] at hx; injection hx
    exact (h.after_line _ (decodeLine_isLine l) hu).after_command c ht'

/-- Settles O44: a step takes its input, performs its line event, and performs its command or resets; each keeps the
invariants. -/
theorem stepKeepsTheInvariants : Obligations.StepKeepsTheInvariants := by
  intro s t h hx
  cases hin : s.inputs with
  | nil =>
    rw [step_of_inputs_nil s hin] at hx
    cases hx
    exact h
  | cons i rest =>
    rw [step_of_inputs_cons s i rest hin] at hx
    exact (h.withInputs rest).after_performInput i hx

/-- Settles O45: the reset state is what a reset makes of any state. -/
theorem resetMeetsTheInvariants : Obligations.ResetMeetsTheInvariants := inv_applyReset State.reset

end Sys2Proof.Machine
end

section
/-! PROOFS. The step (43_control.md R117): it runs the decoded instruction of each port, and the idle cycle when nothing
is presented. -/

namespace Sys2Proof.Machine

/-- The idle word on the line leaves a cycle to its command (R97). -/
theorem cycle_idle (c : Option HostWord) (s : State) : cycle 0x000 c s = performCommand c s := rfl

/-- A cycle without a command is its line event (R116). -/
theorem cycle_none (l : LineWord) (s : State) : cycle l none s = exec (decodeLine l) s := by
  obtain ⟨t, ht⟩ := exec_next (decodeLine l) s
  rw [cycle_eq, ht, andThen_next, performCommand_none]

theorem step_of_cycle (s : State) (l : LineWord) (c : Option HostWord) (rest : List Input)
    (h : s.inputs = .cycle l c :: rest) : step s = cycle l c { s with inputs := rest } :=
  step_of_inputs_cons s _ rest h

/-- Settles O8: a cycle is its line event, then its command, and either may be absent. -/
theorem stepRunsTheDecodedInstruction : Obligations.StepRunsTheDecodedInstruction := by
  refine ⟨fun s l rest h => ?line, fun s w i rest hw h => ?host, fun s l w i rest hw h => ?both⟩
  case line => rw [step_of_cycle s l none rest h, cycle_none]
  case host => rw [step_of_cycle s _ _ rest h, cycle_idle, performCommand_ok w i _ hw]
  case both =>
    obtain ⟨u, hu⟩ := exec_next (decodeLine l) { s with inputs := rest }
    exact ⟨u, hu, by rw [step_of_cycle s l _ rest h, cycle_eq, hu, andThen_next, performCommand_ok w i u hw]⟩

/-- Settles O9: the idle cycle has no effect. -/
theorem stepWithNothingPresentedIsIdle : Obligations.StepWithNothingPresentedIsIdle :=
  fun s h => ⟨step_of_inputs_nil s h, cycle_none 0x000 s⟩

/-- A word of 10 bits is presented on the line port and one of 16 on the host command port (log 7). -/
theorem withFetchWord_inputs (s : State) :
    (∀ l : LineWord, (s.withFetchWord 10 l.toNat).inputs = .cycle l none :: s.inputs) ∧
    (∀ w : HostWord, (s.withFetchWord 16 w.toNat).inputs = .cycle 0x000 (some w) :: s.inputs) := by
  constructor <;> intro w <;> simp [State.withFetchWord, tablePortWord, inputOfWord]

/-- Settles O11: the word presented is the next input, and taking it leaves the state it was presented to. -/
theorem presentedWordRunsNext : Obligations.PresentedWordRunsNext := by
  obtain ⟨hline, hhost, -⟩ := stepRunsTheDecodedInstruction
  refine ⟨fun s w i hw => ?host, fun s l => ?line⟩
  case host =>
    obtain ⟨-, hin⟩ := withFetchWord_inputs s
    exact hhost (s.withFetchWord 16 w.toNat) w i s.inputs hw (hin w)
  case line =>
    obtain ⟨hin, -⟩ := withFetchWord_inputs s
    exact hline (s.withFetchWord 10 l.toNat) l s.inputs (hin l)

end Sys2Proof.Machine
end
